-- ==== Sys2Proof/Word.lean ====
section
/-! DEFINITION. The byte and word types of the block (00_scope R4, R11): bytes of 8 bits, words of 32 bits, all
unsigned. The byte order, which a test could show wrong, is in Machine/Bytes.lean. -/

namespace Sys2Proof

/-- A byte of the sector buffer, 8 bits (00_scope R4). -/
abbrev Byte := BitVec 8

/-- A 32-bit word, checksum or register (00_scope R4). -/
abbrev Word := BitVec 32

end Sys2Proof
end

