-- ==== Sys2Proof/Syntax.lean ====
section
/-! DEFINITION. The twelve operations of 30_encoding R73, one constructor per row of spec/opcode_table.json, and the
pseudo-instructions of R78 that expand to commands alone. -/

namespace Sys2Proof

/-- An operation of the block. The one operand is the 10-bit unsigned `ARG` (R71, R72). -/
inductive Instr where
  /-- `ZERO`, R90. -/
  | zero
  /-- `SCR`, R91. -/
  | scr
  /-- `CKCALC`, R102. -/
  | ckcalc
  /-- `CKEMBED`, R103. -/
  | ckembed
  /-- `CKVERIFY`, R104. -/
  | ckverify
  /-- `WKTMPL`, R110. -/
  | wktmpl
  /-- `WKID k`, R111: `k` is the frame index, legal values 0..3. -/
  | wkid (k : BitVec 10)
  /-- `WKNEXT`, R114. -/
  | wknext
  /-- `WKRST m`, R115: `m` is a mask, legal values 0..3. -/
  | wkrst (m : BitVec 10)
  /-- `WKCHK`, R120. -/
  | wkchk
  /-- `CMDSEAL n`, R130: `n` is the payload length in bytes; every value decodes. -/
  | cmdseal (n : BitVec 10)
  /-- `RSPOPEN`, R133. -/
  | rspopen
deriving DecidableEq, Repr

/-- The pseudo-instructions of R78 that stand for commands only. (`HANDSHAKE` and `EXCHANGE` call the Sector Channel
too: Machine/HostSequences.lean.) -/
inductive Pseudo where
  /-- `DESCR`. -/
  | descr
  /-- `WKRESTART`. -/
  | wkrestart
  /-- `WKFORGET`. -/
  | wkforget
  /-- `WKFRAME k`. -/
  | wkframe (k : BitVec 10)
deriving DecidableEq, Repr

/-- The expansions of R78. -/
def Pseudo.expand : Pseudo → List Instr
  | .descr     => [.scr]
  | .wkrestart => [.wkrst 1]
  | .wkforget  => [.wkrst 2]
  | .wkframe k => [.wktmpl, .wkid k]

end Sys2Proof
end

