-- ==== Sys2Proof/WellFormed.lean ====
section
/-! DEFINITION. Which terms of `Instr` stand for a legal command word (30_encoding R72): `WKID k` and `WKRST m` have
legal operands 0..3; `CMDSEAL n` takes every 10-bit `n`; the others have no operand. -/

namespace Sys2Proof

/-- R72. -/
def Instr.wf : Instr → Bool
  | .zero      => true
  | .scr       => true
  | .ckcalc    => true
  | .ckembed   => true
  | .ckverify  => true
  | .wktmpl    => true
  | .wkid k    => decide (k.toNat ≤ 3)
  | .wknext    => true
  | .wkrst m   => decide (m.toNat ≤ 3)
  | .wkchk     => true
  | .cmdseal _ => true
  | .rspopen   => true

end Sys2Proof
end

