-- ==== Sys2Proof/Decode.lean ====
section
/-! DEFINITION. The command word (30_encoding): its fields (R71), the decode procedure, total on all 2^32 words and
rejecting by name (R74), the encoder, and the match and mask table (R73). The command word is a value on a port, not bytes
in memory, so it has no byte order (R70). -/

namespace Sys2Proof

/-- `OP = cw[7:0]` (R71). -/
def fieldOp (cw : Word) : BitVec 8 := cw.extractLsb' 0 8
/-- `RSV0 = cw[15:8]`, must be 0 (R71). -/
def fieldRsv0 (cw : Word) : BitVec 8 := cw.extractLsb' 8 8
/-- `ARG = cw[25:16]` (R71). -/
def fieldArg (cw : Word) : BitVec 10 := cw.extractLsb' 16 10
/-- `RSV1 = cw[31:26]`, must be 0 (R71). -/
def fieldRsv1 (cw : Word) : BitVec 6 := cw.extractLsb' 26 6

/-- Why a command word is `ILLEGAL` (R74, R75). The block reports all four alike. -/
inductive Illegal where
  /-- A reserved bit is not zero. -/
  | reservedBits
  /-- `ARG` is not 0 on an operation that takes no operand. -/
  | operandNotZero
  /-- `ARG > 3` on `WKID` or `WKRST`. -/
  | operandTooLarge
  /-- `OP` names no operation. -/
  | unknownOp
deriving DecidableEq, Repr

/-- An operation without operand: `ARG` must be 0 (R74). -/
def decodePlain (arg : BitVec 10) (i : Instr) : Except Illegal Instr :=
  if arg = 0 then .ok i else .error .operandNotZero

/-- An operation whose operand is 0..3 (R74). -/
def decodeSmall (arg : BitVec 10) (i : BitVec 10 → Instr) : Except Illegal Instr :=
  if arg.toNat ≤ 3 then .ok (i arg) else .error .operandTooLarge

/-- The `case OP of` lines of R74. -/
def decodeOp (op : BitVec 8) (arg : BitVec 10) : Except Illegal Instr :=
  match op.toNat with
  | 0x01 => decodePlain arg .zero
  | 0x02 => decodePlain arg .scr
  | 0x10 => decodePlain arg .ckcalc
  | 0x11 => decodePlain arg .ckembed
  | 0x12 => decodePlain arg .ckverify
  | 0x20 => decodePlain arg .wktmpl
  | 0x21 => decodeSmall arg .wkid
  | 0x22 => decodePlain arg .wknext
  | 0x23 => decodeSmall arg .wkrst
  | 0x28 => decodePlain arg .wkchk
  | 0x30 => .ok (.cmdseal arg)
  | 0x31 => decodePlain arg .rspopen
  | _    => .error .unknownOp

/-- `decode(cw)` of R74. -/
def decode (cw : Word) : Except Illegal Instr :=
  if fieldRsv0 cw ≠ 0 ∨ fieldRsv1 cw ≠ 0 then .error .reservedBits
  else decodeOp (fieldOp cw) (fieldArg cw)

/-- The operation code of R73. -/
def Instr.op : Instr → BitVec 8
  | .zero      => 0x01
  | .scr       => 0x02
  | .ckcalc    => 0x10
  | .ckembed   => 0x11
  | .ckverify  => 0x12
  | .wktmpl    => 0x20
  | .wkid _    => 0x21
  | .wknext    => 0x22
  | .wkrst _   => 0x23
  | .wkchk     => 0x28
  | .cmdseal _ => 0x30
  | .rspopen   => 0x31

/-- The operand of R72; 0 for the operations that take none. -/
def Instr.arg : Instr → BitVec 10
  | .wkid k    => k
  | .wkrst m   => m
  | .cmdseal n => n
  | .zero | .scr | .ckcalc | .ckembed | .ckverify | .wktmpl | .wknext | .wkchk | .rspopen => 0

/-- The command word of an operation: `RSV1 = 0`, `ARG`, `RSV0 = 0`, `OP`, from bit 31 down (R71), that is
`OP + 65536 * ARG`. -/
def encode (i : Instr) : Word := (0 : BitVec 6) ++ i.arg ++ (0 : BitVec 8) ++ i.op

/-- A row of the match and mask table of R73: `cw` selects the row iff `(cw AND mask) = match`. -/
structure OpcodeRow where
  mask  : Word
  value : Word
deriving DecidableEq, Repr

/-- `(cw AND mask) = match` (R73). -/
def OpcodeRow.selects (r : OpcodeRow) (cw : Word) : Bool := decide (cw &&& r.mask = r.value)

/-- The row of an operation in the table of R73. -/
def Instr.row : Instr → OpcodeRow
  | .zero      => ⟨0xFFFFFFFF, 0x00000001⟩
  | .scr       => ⟨0xFFFFFFFF, 0x00000002⟩
  | .ckcalc    => ⟨0xFFFFFFFF, 0x00000010⟩
  | .ckembed   => ⟨0xFFFFFFFF, 0x00000011⟩
  | .ckverify  => ⟨0xFFFFFFFF, 0x00000012⟩
  | .wktmpl    => ⟨0xFFFFFFFF, 0x00000020⟩
  | .wkid _    => ⟨0xFFFCFFFF, 0x00000021⟩
  | .wknext    => ⟨0xFFFFFFFF, 0x00000022⟩
  | .wkrst _   => ⟨0xFFFCFFFF, 0x00000023⟩
  | .wkchk     => ⟨0xFFFFFFFF, 0x00000028⟩
  | .cmdseal _ => ⟨0xFC00FFFF, 0x00000030⟩
  | .rspopen   => ⟨0xFFFFFFFF, 0x00000031⟩

/-- The twelve rows of R73 in the table's order. -/
def opcodeTable : List OpcodeRow :=
  [Instr.zero.row, Instr.scr.row, Instr.ckcalc.row, Instr.ckembed.row, Instr.ckverify.row, Instr.wktmpl.row,
   (Instr.wkid 0).row, Instr.wknext.row, (Instr.wkrst 0).row, Instr.wkchk.row, (Instr.cmdseal 0).row,
   Instr.rspopen.row]

/-- The instruction the decoder reads from the table's numbering of an instruction's bits, bit 0 least significant: a
command word is one number of 32 bits, so the bits below `nbits` are the word and every bit above them is 0. -/
def decodeTableWord (nbits w : Nat) : Option Instr :=
  (decode (BitVec.ofNat 32 (w % 2 ^ nbits))).toOption

end Sys2Proof
end

