-- ==== Sys2Proof/Machine/Bytes.lean ====
section
/-! DEFINITION. Little-endian packing, the only byte order the block has (00_scope R12, 20_memory R52). -/

namespace Sys2Proof.Machine

/-- `le32(b0, b1, b2, b3)` of R12: the byte at the lowest offset is the least significant. -/
def le32 (b0 b1 b2 b3 : Byte) : Word := b3 ++ b2 ++ b1 ++ b0

/-- Byte `j` of `bytes_le(w)` of R12: `w[8j+7 : 8j]`, for `j` in 0..3. -/
def byteOf (w : Word) (j : Nat) : Byte := w.extractLsb' (8 * j) 8

/-- `bytes_le(w)` of R12 as a sequence of four bytes; also the conversion of a wake-up identifier or
magic that a configuration supplies as a number (00_scope R8). -/
def bytesLe (w : Word) : Fin 4 → Byte := fun j => byteOf w j

end Sys2Proof.Machine
end

