-- ==== Sys2Proof/Config.lean ====
section
/-! DEFINITION. What is fixed for the machine: the five constant stores of the block as one configuration
record, the check a configuration must pass, and the block's own configuration, whose open parameters have no value
in Lean (00_scope R4 to R10, 10_state R32, 70_reset R172). Also the free contents of the buffer after a reset (10_state R35).
The configuration is not state (10_state R34). -/

namespace Sys2Proof

/-- R4: bytes the checksum covers; also the largest payload length `CMDSEAL` accepts. -/
abbrev payloadBytes : Nat := 508

/-- The constant stores of 10_state R32. Sequences are functions of an index below their length, as the spec writes them. -/
structure Config where
  /-- `XOR_TABLE`, `T[i]` (R5). -/
  xorTable    : Fin 128 → Word
  /-- `CKSUM_FN` (R6): a total function of exactly 127 words; nothing else is known of it. -/
  cksumFn     : (Fin 127 → Word) → Word
  /-- `WAKE_MAGIC` (R7), by increasing offset. -/
  wakeMagic   : Fin 4 → Byte
  /-- `WAKE_ID[k][j]` (R8), the byte frame `k` has at offset `4 + j`. -/
  wakeId      : Fin 4 → Fin 4 → Byte
  /-- `WAKE_TRAILER[j]` (R9), the byte the template has at offset `0x1F8 + j`. -/
  wakeTrailer : Fin 8 → Byte

namespace Config

/-- R10: the four identifiers are pairwise distinct. The shapes R172 asks for are in the types. -/
def wellFormed (c : Config) : Bool :=
  decide (∀ k k' : Fin 4, k ≠ k' → ∃ j : Fin 4, c.wakeId k j ≠ c.wakeId k' j)

/-- The configuration check (R10, 60_exceptions R156): an ill-formed configuration is refused before any step. -/
def check (c : Config) : Option Config := if c.wellFormed then some c else none

/-- R7: the named constant, by increasing offset (90_conflicts C2 keeps this order; the doubt about the literal is log entry 11). -/
def documentMagic : Fin 4 → Byte := fun j =>
  match j with
  | 0 => 0x19
  | 1 => 0x7B
  | 2 => 0x03
  | 3 => 0x25

/-- Four identifiers with the distinctness R10 asks for. -/
structure WakeIds where
  id       : Fin 4 → Fin 4 → Byte
  distinct : ∀ k k' : Fin 4, k ≠ k' → ∃ j : Fin 4, id k j ≠ id k' j

/-- Shows that four distinct identifiers exist, which the constant `openWakeIds` needs. It is no value of the block's. -/
def someWakeIds : WakeIds := ⟨fun k _ => BitVec.ofNat 8 k.val, by decide⟩

/-- P1, R5: the 128 table words are not in the source. An uninterpreted value (log entry 7). -/
opaque openXorTable : Fin 128 → Word

/-- P2, R6: the checksum algorithm is not in the source. An uninterpreted function (log entry 8). -/
opaque openCksumFn : (Fin 127 → Word) → Word

/-- P3, R8, R10: the four identifiers are not in the source, only that they are distinct. Uninterpreted (log entry 9). -/
opaque openWakeIds [Inhabited WakeIds] : WakeIds

/-- P4, R9: the eight trailer bytes are not in the source. Uninterpreted (log entry 10). -/
opaque openWakeTrailer : Fin 8 → Byte

/-- The block's own configuration: the open parameters uninterpreted, the magic as the document gives it. -/
def hardware : Config where
  xorTable    := openXorTable
  cksumFn     := openCksumFn
  wakeMagic   := documentMagic
  wakeId      := (@openWakeIds ⟨someWakeIds⟩).id
  wakeTrailer := openWakeTrailer

/-- The byte at an offset of the buffer after the `draw`-th reset and before anything is written there: any value,
and two resets need not agree (10_state R35, 70_reset R170, 93 U5). A free value (log entry 5). -/
opaque resetByte (draw offset : Nat) : Byte

end Config
end Sys2Proof
end

