-- ==== Sys2Proof/Machine/State.lean ====
section
/-! DEFINITION. The state of the machine as plain data (10_state): the sector buffer, the three 32-bit registers and the
two counters the spec names, and the host's side of the ports, which is the model's own. The configuration is not state
(10_state R34). -/

namespace Sys2Proof.Machine

/-- The sector buffer as pairs of offset and byte. It lists the bytes written since the last reset; a byte it does not
list has no value of its own and reads as a free value (`State.byte`). -/
abbrev Memory := List Host.Cell

/-- The canonical form: offsets strictly rising, each below 512 (10_state R22, 20_memory R50). An unlisted offset has no
value, so no entry equals what an unlisted offset holds (log entry 5). -/
abbrev Memory.wf (m : Memory) : Prop :=
  m.Pairwise (fun x y => x.1 < y.1) ∧ ∀ x ∈ m, x.1 < 512

/-- What the host can do to the block: the six primitives of 20_memory R53 to R57, and reset (70_reset R170). Offsets are
9 bits, word indices 7 bits and register numbers 2 bits, so an access out of range cannot be expressed (R58, 10_state R31). -/
inductive HostAction where
  /-- `BufWrite8(a, v)`, R53. -/
  | bufWrite8 (a : BitVec 9) (v : Byte)
  /-- `BufRead8(a)`, R54. -/
  | bufRead8 (a : BitVec 9)
  /-- `BufWrite32(i, w)`, R55. -/
  | bufWrite32 (i : BitVec 7) (w : Word)
  /-- `BufRead32(i)`, R55. -/
  | bufRead32 (i : BitVec 7)
  /-- `RegRead(r)`, R56. -/
  | regRead (r : BitVec 2)
  /-- `Issue(cw)`, R57. -/
  | issue (cw : Word)
  /-- Reset, 70_reset R170. -/
  | reset
deriving DecidableEq, Repr

/-- What a port returned to the host: a byte (R54) or a word (R55, R56). -/
inductive Reply where
  | byte (v : Byte)
  | word (w : Word)
deriving DecidableEq, Repr

/-- The state. `sb` to `vseq` are all the state the spec gives the block (10_state R22 to R29, R33). `draw`, `inbox` and
`replies` are the model's own (log entries 1, 4, 6). -/
structure State where
  /-- `SB`, R22. -/
  sb      : Memory
  /-- `CK_CALC`, R23. -/
  ckCalc  : Word
  /-- `CK_RECV`, R24. -/
  ckRecv  : Word
  /-- `STATUS`, R25. -/
  status  : Word
  /-- `WSEQ`, R28. -/
  wseq    : BitVec 3
  /-- `VSEQ`, R29. -/
  vseq    : BitVec 3
  /-- How many resets the host has performed in this run: the index of the free buffer contents. -/
  draw    : Nat
  /-- The host's coming actions, the next one first. -/
  inbox   : List HostAction
  /-- What the ports returned to the host, newest first. -/
  replies : List Reply
deriving DecidableEq, Repr

/-- Why the machine stops with a fault. The block has no fault and no stuck state (60_exceptions R154, R156): every command word has a
defined outcome and every operation terminates, so there is no reason to name. -/
inductive Fault where
deriving DecidableEq, Repr

/-- Why a step is refused. -/
inductive Refusal where
  /-- An instruction whose meaning is not written yet. Raised by no arm of `exec`: all twelve have their meaning. Safe. -/
  | notModelled (mnemonic : String)
  /-- The configuration fails its check (00_scope R10, 60_exceptions R156). Raised by `stepWith` for a configuration given
  from outside; `step` runs on the block's own, which passes (`Config.hardware_wellFormed`). Safe: it stops. -/
  | illFormedConfiguration
deriving DecidableEq, Repr

/-- The state right after reset (10_state R35, 70_reset R170; power-up is a reset): the registers and counters 0, no byte of
the buffer written, so that every byte is a free value, and nothing asked of the ports yet. -/
def State.reset : State where
  sb      := []
  ckCalc  := 0
  ckRecv  := 0
  status  := 0
  wseq    := 0
  vseq    := 0
  draw    := 0
  inbox   := []
  replies := []

end Sys2Proof.Machine
end

