-- ==== Sys2Proof/Machine/Flags.lean ====
section
/-! DEFINITION. The result codes (10_state R27), the seven flags and their packing into `STATUS` (R25, R26), the register view of
the counters (R30), and the verdict table of `WKCHK` (43 R123). -/

namespace Sys2Proof.Machine

/-- The result codes of 10_state R27. -/
inductive Result where
  | none
  | ok
  | checksumMismatch
  | framingViolation
  | illegalCommand
  | sequenceError
  | notWakeFrame
deriving DecidableEq, Repr

/-- The numbers of R27. -/
def Result.code : Result → Nat
  | .none             => 0
  | .ok               => 1
  | .checksumMismatch => 2
  | .framingViolation => 3
  | .illegalCommand   => 4
  | .sequenceError    => 5
  | .notWakeFrame     => 6

/-- The flags of `STATUS` (R25). A flag an operation's rule does not mention is 0 (R26). -/
structure Flags where
  ckok  : Bool := false
  magic : Bool := false
  idhit : Bool := false
  gap   : Bool := false
  fill  : Bool := false
  trail : Bool := false
  idx   : Fin 4 := 0
deriving DecidableEq, Repr

/-- `pack(result, flags)` of R26. -/
def pack (r : Result) (f : Flags) : Word :=
  BitVec.ofNat 32 (r.code + 256 * f.ckok.toNat + 512 * f.magic.toNat + 1024 * f.idhit.toNat + 2048 * f.gap.toNat
    + 4096 * f.fill.toNat + 8192 * f.trail.toNat + 16384 * f.idx.val)

/-- `AWAKE`: the derived bit `VSEQ = 4` (10_state R29). -/
def State.awake (s : State) : Bool := decide (s.vseq = 4)

/-- `SEQ` (R30): `WSEQ` in 2:0, 0 in 3, `VSEQ` in 6:4, `AWAKE` in 7, 0 above. -/
def State.seq (s : State) : Word :=
  (0 : BitVec 24) ++ BitVec.ofBool s.awake ++ s.vseq ++ (0 : BitVec 1) ++ s.wseq

/-- The filler (42 R110, 90_conflicts C3): the byte at offset `i` is `i AND 0xFF`. -/
def filler (i : Nat) : Byte := BitVec.ofNat 8 (i &&& 0xFF)

/-- `STRUCT` of 43 R120. -/
def Flags.struct (f : Flags) : Bool := f.magic && f.idhit && f.gap && f.fill && f.trail

/-- The table of 43 R123, first matching line: the result and `VSEQ` afterwards. -/
def wakeVerdict (f : Flags) (vseq : BitVec 3) : Result × BitVec 3 :=
  if !f.magic then (.notWakeFrame, vseq)
  else if !f.struct then (.notWakeFrame, 0)
  else if !f.ckok then (.checksumMismatch, 0)
  else if f.idx.val = 0 then (.ok, 1)
  else if f.idx.val = vseq.toNat then (.ok, vseq + 1)
  else (.sequenceError, 0)

end Sys2Proof.Machine
end

