-- ==== Sys2Proof/Machine/Ops.lean ====
section
/-! DEFINITION. The named operations over the buffer and the registers, written once (00_scope R13): reading and writing
bytes, words and regions of the buffer; ending an operation with a result, which is all that is left of an exception in this
block (60_exceptions R154: no trap entry, R155: no trap return); the shared parts of the operations of files 40 to 44. -/

namespace Sys2Proof.Machine

/-! ### The buffer -/

/-- The byte listed at an offset, if one has been written there since the last reset. -/
def Memory.get? : Memory → Nat → Option Byte
  | [], _ => none
  | x :: m, a => if x.1 = a then some x.2 else Memory.get? m a

/-- `SB[a] <- f a` for every `a` in `[lo, lo + n)`: the loops of the pseudocode, whose iterations are independent (R13). -/
def Memory.fill (m : Memory) (lo n : Nat) (f : Nat → Byte) : Memory :=
  m.filter (fun x => decide (x.1 < lo))
    ++ ((List.range' lo n).map fun a => (a, f a))
    ++ m.filter (fun x => decide (lo + n ≤ x.1))

/-- `SB[a]` (R13). A byte nothing has written since the last reset is a free value (10_state R35, 93 U5; log entry 5). -/
def State.byte (s : State) (a : Nat) : Byte :=
  (s.sb.get? a).getD (Config.resetByte s.draw a)

/-- Word `i` of the little-endian reading of a byte sequence, as R13 reads the buffer. -/
def wordOfBytes (f : Nat → Byte) (i : Nat) : Word := le32 (f (4 * i)) (f (4 * i + 1)) (f (4 * i + 2)) (f (4 * i + 3))

/-- `SBW[i]` (R13), little-endian (20_memory R52). -/
def State.word (s : State) (i : Nat) : Word := wordOfBytes s.byte i

/-- `PAYW` (R13, 41 R100): words 0..126. -/
def State.payload (s : State) : Fin 127 → Word := fun i => s.word i

/-- Write a region of the buffer. -/
def State.fill (s : State) (lo n : Nat) (f : Nat → Byte) : State := { s with sb := s.sb.fill lo n f }

/-- `SB[a] <- v` (R13). -/
def State.setByte (s : State) (a : Nat) (v : Byte) : State := s.fill a 1 fun _ => v

/-- `SBW[i] <- w` (R13): the four bytes of `bytes_le(w)` at offsets `4i .. 4i+3`. -/
def State.setWord (s : State) (i : Nat) (w : Word) : State := s.fill (4 * i) 4 fun a => byteOf w (a - 4 * i)

/-! ### Ending an operation -/

/-- `done <Result>(flags)` and `raise <Result>(flags)` (R13): `STATUS` is rewritten in full (10_state R26) and the operation ends.
Nothing else happens: no trap, no saved state, no mode (60_exceptions R154). -/
def State.finish (s : State) (r : Result) (f : Flags) : State := { s with status := pack r f }

/-- What every illegal command word does, and only this (30_encoding R75). -/
def illegalCommand (s : State) : State := s.finish .illegalCommand {}

/-! ### Shared parts of the operations -/

/-- `for i in 0..127: SBW[i] <- SBW[i] XOR T[i]` (40 R91), byte by byte: byte `a` is byte `a mod 4` of word `a / 4`. -/
def scramble (c : Config) (s : State) : State :=
  s.fill 0 512 fun a => byteOf (s.word (a / 4) ^^^ c.xorTable (Fin.ofNat 128 (a / 4))) (a % 4)

/-- `c <- CKSUM_FN(PAYW)` (41 R100). -/
def checksum (c : Config) (s : State) : Word := c.cksumFn s.payload

/-- `c <- CKSUM_FN(PAYW); CK_CALC <- c; SBW[127] <- c` (41 R103). -/
def embed (c : Config) (s : State) : State :=
  { s.setWord 127 (checksum c s) with ckCalc := checksum c s }

/-- `c <- CKSUM_FN(PAYW); r <- SBW[127]; CK_CALC <- c; CK_RECV <- r` (41 R104, 43 R120, 44 R133). -/
def latchChecksums (c : Config) (s : State) : State :=
  { s with ckCalc := checksum c s, ckRecv := s.word 127 }

/-- Whether the computed checksum equals the stored one (41 R104). -/
def checksumOk (c : Config) (s : State) : Bool := decide (checksum c s = s.word 127)

/-- The verdict of `CKVERIFY` and `RSPOPEN` (41 R104, 44 R133): both checksums latched, then `OK` with `CKOK = 1` or
`CHECKSUM_MISMATCH` with `CKOK = 0`. -/
def verify (c : Config) (s : State) : State :=
  (latchChecksums c s).finish (if checksumOk c s then .ok else .checksumMismatch) { ckok := checksumOk c s }

/-- The writes of `WKTMPL` (42 R110), line by line. -/
def template (c : Config) (s : State) : State :=
  let s := s.fill 0 512 fun _ => 0
  let s := s.fill 0 4 fun a => c.wakeMagic (Fin.ofNat 4 a)
  let s := s.fill 0x1F8 8 fun a => c.wakeTrailer (Fin.ofNat 8 (a - 0x1F8))
  s.fill 0x10 0x1E8 filler

/-- The identifier write of `WKID k` (42 R111). -/
def writeId (c : Config) (k : Fin 4) (s : State) : State :=
  s.fill 4 4 fun a => c.wakeId k (Fin.ofNat 4 (a - 4))

/-- The writes of `WKID k` (42 R111): the identifier, then exactly the writes of `CKEMBED`. -/
def identify (c : Config) (k : Fin 4) (s : State) : State := embed c (writeId c k s)

end Sys2Proof.Machine
end

