-- ==== Sys2Proof/Machine/Buffer.lean ====
section
/-! DEFINITION. Buffer clear and scrambler: `ZERO` and `SCR` (40_buffer_scrambler). Each operation is a function of the
configuration; the meaning an arm of `exec` calls is that function at the block's own configuration. -/

namespace Sys2Proof.Machine

/-- `ZERO`, R90. -/
def zeroOp (s : State) : State := (s.fill 0 512 fun _ => 0).finish .ok {}

/-- `SCR`, R91. -/
def scrOp (c : Config) (s : State) : State := (scramble c s).finish .ok {}

/-- The meaning of `ZERO`. -/
def execZero (s : State) : Host.Outcome State Fault Refusal := .next (zeroOp s)

/-- The meaning of `SCR`. -/
def execScr (s : State) : Host.Outcome State Fault Refusal := .next (scrOp Config.hardware s)

end Sys2Proof.Machine
end

