-- ==== Sys2Proof/Machine/Checksum.lean ====
section
/-! DEFINITION. The checksum engine: `CKCALC`, `CKEMBED`, `CKVERIFY` (41_checksum). -/

namespace Sys2Proof.Machine

/-- `CKCALC`, R102. -/
def ckcalcOp (c : Config) (s : State) : State := { s with ckCalc := checksum c s }.finish .ok {}

/-- `CKEMBED`, R103. -/
def ckembedOp (c : Config) (s : State) : State := (embed c s).finish .ok {}

/-- `CKVERIFY`, R104. -/
def ckverifyOp (c : Config) (s : State) : State := verify c s

/-- The meaning of `CKCALC`. -/
def execCkcalc (s : State) : Host.Outcome State Fault Refusal := .next (ckcalcOp Config.hardware s)

/-- The meaning of `CKEMBED`. -/
def execCkembed (s : State) : Host.Outcome State Fault Refusal := .next (ckembedOp Config.hardware s)

/-- The meaning of `CKVERIFY`. -/
def execCkverify (s : State) : Host.Outcome State Fault Refusal := .next (ckverifyOp Config.hardware s)

end Sys2Proof.Machine
end

