-- ==== Sys2Proof/Machine/Operands.lean ====
section
/-! DEFINITION. The one operand form of the block, `ARG` (30_encoding R72): a frame index, a mask, a payload length. -/

namespace Sys2Proof.Machine

/-- `k` of `WKID` (R72): the frame index if it is legal. -/
def frameIndex? (arg : BitVec 10) : Option (Fin 4) :=
  if h : arg.toNat < 4 then some ⟨arg.toNat, h⟩ else none

/-- `m` of `WKRST` (R72): the two bits of the mask, bit 0 for `WSEQ` and bit 1 for `VSEQ`, if it is legal. -/
def restartMask? (arg : BitVec 10) : Option (Bool × Bool) :=
  if arg.toNat ≤ 3 then some (arg.getLsbD 0, arg.getLsbD 1) else none

/-- `n` of `CMDSEAL` (44 R130): the payload length if it is at most 508; above it `FRAMING_VIOLATION` (R131). -/
def payloadLength? (arg : BitVec 10) : Option Nat :=
  if arg.toNat > payloadBytes then none else some arg.toNat

/-- The frame index that `WSEQ` selects (42 R114, 10_state R28): none at 4 and above. -/
def nextFrame? (wseq : BitVec 3) : Option (Fin 4) :=
  if h : wseq.toNat < 4 then some ⟨wseq.toNat, h⟩ else none

end Sys2Proof.Machine
end

