-- ==== Sys2Proof/Machine/CommandFrames.lean ====
section
/-! DEFINITION. Command and response frames: `CMDSEAL`, `RSPOPEN` (44_command_frames), and the command frame as a value (R132). -/

namespace Sys2Proof.Machine

/-- `CMDSEAL n`, R130 and R131: zero-fill of `[n, 512)`, then exactly `CKEMBED`, then exactly `SCR`. -/
def cmdsealOp (c : Config) (arg : BitVec 10) (s : State) : State :=
  match payloadLength? arg with
  | none   => s.finish .framingViolation {}
  | some n => (scramble c (embed c (s.fill n (512 - n) fun _ => 0))).finish .ok {}

/-- `RSPOPEN`, R133: exactly `SCR`, then exactly `CKVERIFY`. -/
def rspopenOp (c : Config) (s : State) : State := verify c (scramble c s)

/-- The meaning of `CMDSEAL n`. -/
def execCmdseal (n : BitVec 10) (s : State) : Host.Outcome State Fault Refusal := .next (cmdsealOp Config.hardware n s)

/-- The meaning of `RSPOPEN`. -/
def execRspopen (s : State) : Host.Outcome State Fault Refusal := .next (rspopenOp Config.hardware s)

/-- Bytes 0..507 of `Plain(p)` (R132): the payload, then zeros. -/
def plainBody (p : List Byte) (a : Nat) : Byte := p.getD a 0

/-- The checksum inside `Plain(p)` (R132). -/
def plainChecksum (c : Config) (p : List Byte) : Word := c.cksumFn fun i => wordOfBytes (plainBody p) i

/-- `Plain(p)` of R132, the byte at offset `a`, for a payload of at most 508 bytes. -/
def plainFrame (c : Config) (p : List Byte) (a : Nat) : Byte :=
  if a < 508 then plainBody p a else byteOf (plainChecksum c p) (a - 508)

/-- A 512-byte sector after `SCR`, word by word (40 R91): the byte at offset `a`. -/
def scrambledFrame (c : Config) (f : Nat → Byte) (a : Nat) : Byte :=
  byteOf (wordOfBytes f (a / 4) ^^^ c.xorTable (Fin.ofNat 128 (a / 4))) (a % 4)

/-- `Seal(p) = SCR(Plain(p))` (R132). -/
def sealedFrame (c : Config) (p : List Byte) (a : Nat) : Byte := scrambledFrame c (plainFrame c p) a

end Sys2Proof.Machine
end

