-- ==== Sys2Proof/Machine/WakeBuilder.lean ====
section
/-! DEFINITION. The wake-up frame builder: `WKTMPL`, `WKID`, `WKNEXT`, `WKRST` (42_wake_builder), and the frame as a value
(R112). -/

namespace Sys2Proof.Machine

/-- `WKTMPL`, R110. -/
def wktmplOp (c : Config) (s : State) : State := (template c s).finish .ok {}

/-- `WKID k`, R111. `ARG > 3` is `ILLEGAL_COMMAND`; decode already rejects such a word (R74, log entry 14). -/
def wkidOp (c : Config) (arg : BitVec 10) (s : State) : State :=
  match frameIndex? arg with
  | some k => (identify c k s).finish .ok {}
  | none   => illegalCommand s

/-- `WKNEXT`, R114. -/
def wknextOp (c : Config) (s : State) : State :=
  match nextFrame? s.wseq with
  | some k => { identify c k (template c s) with wseq := s.wseq + 1 }.finish .ok {}
  | none   => s.finish .sequenceError {}

/-- `WKRST m`, R115. `ARG > 3` is `ILLEGAL_COMMAND`; decode already rejects such a word (R74, log entry 14). -/
def wkrstOp (arg : BitVec 10) (s : State) : State :=
  match restartMask? arg with
  | some (w, v) =>
    { s with wseq := if w then 0 else s.wseq, vseq := if v then 0 else s.vseq }.finish .ok {}
  | none => illegalCommand s

/-- The meaning of `WKTMPL`. -/
def execWktmpl (s : State) : Host.Outcome State Fault Refusal := .next (wktmplOp Config.hardware s)

/-- The meaning of `WKID k`. -/
def execWkid (k : BitVec 10) (s : State) : Host.Outcome State Fault Refusal := .next (wkidOp Config.hardware k s)

/-- The meaning of `WKNEXT`. -/
def execWknext (s : State) : Host.Outcome State Fault Refusal := .next (wknextOp Config.hardware s)

/-- The meaning of `WKRST m`. -/
def execWkrst (m : BitVec 10) (s : State) : Host.Outcome State Fault Refusal := .next (wkrstOp m s)

/-- Bytes 0..507 of `WakeFrame(k)` (R112). -/
def wakeFrameBody (c : Config) (k : Fin 4) (a : Nat) : Byte :=
  if a < 4 then c.wakeMagic (Fin.ofNat 4 a)
  else if a < 8 then c.wakeId k (Fin.ofNat 4 (a - 4))
  else if a < 0x10 then 0
  else if a < 0x1F8 then filler a
  else c.wakeTrailer (Fin.ofNat 8 (a - 0x1F8))

/-- `c_k` of R112. -/
def wakeChecksum (c : Config) (k : Fin 4) : Word := c.cksumFn fun i => wordOfBytes (wakeFrameBody c k) i

/-- `WakeFrame(k)` of R112: the byte at offset `a`, for `a` in 0..511. It depends on the configuration only. -/
def wakeFrame (c : Config) (k : Fin 4) (a : Nat) : Byte :=
  if a < 508 then wakeFrameBody c k a else byteOf (wakeChecksum c k) (a - 508)

end Sys2Proof.Machine
end

