-- ==== Sys2Proof/Machine/WakeValidator.lean ====
section
/-! DEFINITION. The wake-up frame validator: `WKCHK` (43_wake_validator). -/

namespace Sys2Proof.Machine

/-- Whether `SB[a] = f a` for every `a` in `[lo, lo + n)`: the matchers of R121, one per region of the layout. -/
def regionIs (s : State) (lo n : Nat) (f : Nat → Byte) : Bool :=
  (List.range' lo n).all fun a => decide (s.byte a = f a)

/-- `SB[4..7] = WAKE_ID[k]` (R120). -/
def idMatches (c : Config) (s : State) (k : Fin 4) : Bool :=
  regionIs s 4 4 fun a => c.wakeId k (Fin.ofNat 4 (a - 4))

/-- The frame index of `IDHIT` and `IDX` (R120). The identifiers are distinct (00_scope R10), so at most one matches. -/
def matchedId? (c : Config) (s : State) : Option (Fin 4) :=
  if idMatches c s 0 then some 0
  else if idMatches c s 1 then some 1
  else if idMatches c s 2 then some 2
  else if idMatches c s 3 then some 3
  else none

/-- The seven flags of R120, all computed whatever the outcome. -/
def wakeFlags (c : Config) (s : State) : Flags where
  ckok  := checksumOk c s
  magic := regionIs s 0 4 fun a => c.wakeMagic (Fin.ofNat 4 a)
  idhit := (matchedId? c s).isSome
  gap   := regionIs s 8 8 fun _ => 0
  fill  := regionIs s 0x10 0x1E8 filler
  trail := regionIs s 0x1F8 4 fun a => c.wakeTrailer (Fin.ofNat 8 (a - 0x1F8))
  idx   := (matchedId? c s).getD 0

/-- `WKCHK`, R120 to R124. -/
def wkchkOp (c : Config) (s : State) : State :=
  { latchChecksums c s with vseq := (wakeVerdict (wakeFlags c s) s.vseq).2 }.finish
    (wakeVerdict (wakeFlags c s) s.vseq).1 (wakeFlags c s)

/-- The meaning of `WKCHK`. -/
def execWkchk (s : State) : Host.Outcome State Fault Refusal := .next (wkchkOp Config.hardware s)

end Sys2Proof.Machine
end

