-- ==== Sys2Proof/Machine/Dispatch.lean ====
section
/-! DEFINITION. One arm per operation of 30_encoding R73, each a direct call of its meaning. -/

namespace Sys2Proof.Machine

/-- What the block does for an operation it has decoded. -/
def exec (i : Instr) (s : State) : Host.Outcome State Fault Refusal :=
  match i with
  | .zero => Sys2Proof.Machine.execZero s
  | .scr => Sys2Proof.Machine.execScr s
  | .ckcalc => Sys2Proof.Machine.execCkcalc s
  | .ckembed => Sys2Proof.Machine.execCkembed s
  | .ckverify => Sys2Proof.Machine.execCkverify s
  | .wktmpl => Sys2Proof.Machine.execWktmpl s
  | .wkid k => Sys2Proof.Machine.execWkid k s
  | .wknext => Sys2Proof.Machine.execWknext s
  | .wkrst m => Sys2Proof.Machine.execWkrst m s
  | .wkchk => Sys2Proof.Machine.execWkchk s
  | .cmdseal n => Sys2Proof.Machine.execCmdseal n s
  | .rspopen => Sys2Proof.Machine.execRspopen s

end Sys2Proof.Machine
end

