-- ==== Sys2Proof/Machine/Ports.lean ====
section
/-! DEFINITION. The host's ports (20_memory R53 to R57) and reset (70_reset R170), each one atomic step of the host (00_scope R15). -/

namespace Sys2Proof.Machine

/-- `BufWrite8(a, v)`, R53. -/
def bufWrite8 (a : BitVec 9) (v : Byte) (s : State) : State := s.setByte a.toNat v

/-- `BufRead8(a)`, R54: the value returned. -/
def bufRead8 (a : BitVec 9) (s : State) : Byte := s.byte a.toNat

/-- `BufWrite32(i, w)`, R55. -/
def bufWrite32 (i : BitVec 7) (w : Word) (s : State) : State := s.setWord i.toNat w

/-- `BufRead32(i)`, R55: the value returned. -/
def bufRead32 (i : BitVec 7) (s : State) : Word := s.word i.toNat

/-- `RegRead(r)`, R56, with the register numbers of 10_state R31: the value returned. -/
def regRead (r : BitVec 2) (s : State) : Word :=
  match r with
  | 0 => s.status
  | 1 => s.ckCalc
  | 2 => s.ckRecv
  | 3 => s.seq

/-- `Issue(cw)`, R57: decode, then the one operation it selects; an illegal word only sets `STATUS` (30_encoding R75). -/
def issue (cw : Word) (s : State) : Host.Outcome State Fault Refusal :=
  match decode cw with
  | .ok i    => exec i s
  | .error _ => .next (illegalCommand s)

/-- Reset, 70_reset R170 and 10_state R35: registers and counters 0, the buffer any 512 bytes (a new draw of the free contents).
The host's own side, its coming actions and the values it was given, is not the block's and stays (log entry 15). -/
def resetBlock (s : State) : State :=
  { s with sb := [], ckCalc := 0, ckRecv := 0, status := 0, wseq := 0, vseq := 0, draw := s.draw + 1 }

/-- Give the host a value a port returned. -/
def State.answer (s : State) (r : Reply) : State := { s with replies := r :: s.replies }

/-- One host action. -/
def perform (a : HostAction) (s : State) : Host.Outcome State Fault Refusal :=
  match a with
  | .bufWrite8 a v  => .next (bufWrite8 a v s)
  | .bufRead8 a     => .next (s.answer (.byte (bufRead8 a s)))
  | .bufWrite32 i w => .next (bufWrite32 i w s)
  | .bufRead32 i    => .next (s.answer (.word (bufRead32 i s)))
  | .regRead r      => .next (s.answer (.word (regRead r s)))
  | .issue cw       => issue cw s
  | .reset          => .next (resetBlock s)

/-- The host asks for nothing: nothing changes (log entry 2). -/
def idle (s : State) : Host.Outcome State Fault Refusal := .next s

/-- `BufLoad(a, bytes)` (R55): consecutive `BufWrite8` from offset `a`. A load that does not fit cannot be expressed. -/
def bufLoad : (a : Nat) → (bytes : List Byte) → a + bytes.length ≤ 512 → State → State
  | _, [], _, s => s
  | a, v :: bytes, h, s =>
    bufLoad (a + 1) bytes (by simp only [List.length_cons] at h; omega) (bufWrite8 (BitVec.ofNat 9 a) v s)

/-- `BufDump(a, len)` (R55): consecutive `BufRead8` from offset `a`, for `a + len ≤ 512`. -/
def bufDump (a len : Nat) (s : State) : List Byte :=
  (List.range' a len).map fun b => bufRead8 (BitVec.ofNat 9 b) s

end Sys2Proof.Machine
end

