-- ==== Sys2Proof/Machine/Step.lean ====
section
/-! DEFINITION. One step of the machine: the host's next action (70_reset R187: a run is a finite sequence of host actions, each
taking one step). The block has no program counter and fetches nothing (10_state R21), so the next instruction is the word of
the host's next `Issue`. -/

namespace Sys2Proof.Machine

/-- Perform the host's next action; with none, idle. -/
def step (s : State) : Host.Outcome State Fault Refusal :=
  match s.inbox with
  | []           => idle s
  | a :: actions => perform a { s with inbox := actions }

/-- The word as the host's very next `Issue`, the place where `step` takes its next instruction from (log entry 3). -/
def State.withFetchWord (s : State) (nbits w : Nat) : State :=
  { s with inbox := .issue (BitVec.ofNat 32 (w % 2 ^ nbits)) :: s.inbox }

end Sys2Proof.Machine
end

