-- ==== Sys2Proof/Machine/Assembly.lean ====
section
/-! DEFINITION. The assembler syntax (30_encoding R77, R78): one command per line, the mnemonic in capitals, an operand in
decimal or `0x` hexadecimal where there is one, a comment from `;` to the end of the line; and the host port accesses of
a listing, written as the primitives of 20_memory R53 to R56. Details the spec does not fix: log entry 22. -/

namespace Sys2Proof.Machine

/-- The value of a hexadecimal digit. -/
def digitValue? (ch : Char) : Option Nat :=
  if '0' ≤ ch ∧ ch ≤ '9' then some (ch.toNat - 48)
  else if 'A' ≤ ch ∧ ch ≤ 'F' then some (ch.toNat - 55)
  else if 'a' ≤ ch ∧ ch ≤ 'f' then some (ch.toNat - 87)
  else none

/-- A number in a base, most significant digit first, after the value `acc` of the digits already read. -/
def digits? (base : Nat) : (acc : Nat) → List Char → Option Nat
  | acc, [] => some acc
  | acc, ch :: rest =>
    match digitValue? ch with
    | some d => if d < base then digits? base (base * acc + d) rest else none
    | none   => none

/-- A decimal or `0x` hexadecimal number (R77). -/
def number? : List Char → Option Nat
  | [] => none
  | '0' :: 'x' :: ch :: rest => digits? 16 0 (ch :: rest)
  | ch :: rest => digits? 10 0 (ch :: rest)

/-- An operand: a number that the 10 bits of `ARG` can carry (R72). -/
def operand? (text : List Char) : Option (BitVec 10) :=
  match number? text with
  | some n => if n < 1024 then some (BitVec.ofNat 10 n) else none
  | none   => none

/-- The words of a line, which spaces separate. -/
def lineWords : (word : List Char) → List Char → List (List Char)
  | word, [] => if word.isEmpty then [] else [word]
  | word, ch :: rest =>
    if ch = ' ' then (if word.isEmpty then lineWords [] rest else word :: lineWords [] rest)
    else lineWords (word ++ [ch]) rest

/-- The commands one line stands for: none for an empty line or a comment, one for a command (R77), the expansion for a
pseudo-instruction (R78); no answer for a line that is no command. -/
def assembleLine? (line : List Char) : Option (List Instr) :=
  match lineWords [] (line.takeWhile (· ≠ ';')) with
  | [] => some []
  | [m] =>
    match m with
    | ['Z', 'E', 'R', 'O']                     => some [.zero]
    | ['S', 'C', 'R']                          => some [.scr]
    | ['C', 'K', 'C', 'A', 'L', 'C']           => some [.ckcalc]
    | ['C', 'K', 'E', 'M', 'B', 'E', 'D']      => some [.ckembed]
    | ['C', 'K', 'V', 'E', 'R', 'I', 'F', 'Y'] => some [.ckverify]
    | ['W', 'K', 'T', 'M', 'P', 'L']           => some [.wktmpl]
    | ['W', 'K', 'N', 'E', 'X', 'T']           => some [.wknext]
    | ['W', 'K', 'C', 'H', 'K']                => some [.wkchk]
    | ['R', 'S', 'P', 'O', 'P', 'E', 'N']      => some [.rspopen]
    | ['D', 'E', 'S', 'C', 'R']                => some Pseudo.descr.expand
    | ['W', 'K', 'R', 'E', 'S', 'T', 'A', 'R', 'T'] => some Pseudo.wkrestart.expand
    | ['W', 'K', 'F', 'O', 'R', 'G', 'E', 'T'] => some Pseudo.wkforget.expand
    | _ => none
  | [m, x] =>
    match operand? x with
    | none => none
    | some v =>
      match m with
      | ['W', 'K', 'I', 'D']                => some [.wkid v]
      | ['W', 'K', 'R', 'S', 'T']           => some [.wkrst v]
      | ['C', 'M', 'D', 'S', 'E', 'A', 'L'] => some [.cmdseal v]
      | ['W', 'K', 'F', 'R', 'A', 'M', 'E'] => some (Pseudo.wkframe v).expand
      | _ => none
  | _ => none

/-- A number below a bound. -/
def numberBelow? (bound : Nat) (text : List Char) : Option Nat :=
  match number? text with
  | some n => if n < bound then some n else none
  | none   => none

/-- A byte listing such as `22 03 7B 19`, in hexadecimal without prefix (00_scope R11). -/
def byteListing? : List (List Char) → Option (List Byte)
  | [] => some []
  | x :: rest =>
    match digits? 16 0 x, byteListing? rest with
    | some v, some bytes => if v < 256 then some (BitVec.ofNat 8 v :: bytes) else none
    | _, _ => none

/-- The register of a `RegRead` line: its name of 10_state R31, as R77's example writes it, or its number 0..3, as the
primitive of 20_memory R56 takes it. DESIGN CHOICE that both are accepted (log entry 22). -/
def registerNumber? : List Char → Option (BitVec 2)
  | ['S', 'T', 'A', 'T', 'U', 'S']      => some 0
  | ['C', 'K', '_', 'C', 'A', 'L', 'C'] => some 1
  | ['C', 'K', '_', 'R', 'E', 'C', 'V'] => some 2
  | ['S', 'E', 'Q']                     => some 3
  | text                                => (numberBelow? 4 text).map (BitVec.ofNat 2)

/-- A port access of a listing (R77): `BufWrite8 a, v`, `BufRead8 a`, `BufWrite32 i, w`, `BufRead32 i`, `BufLoad a, bytes`,
`BufDump a, len`, `RegRead r`, as the words of its line. -/
def portAccess? : List (List Char) → Option (List HostAction)
  | ['B', 'u', 'f', 'L', 'o', 'a', 'd'] :: a :: listing =>
    match numberBelow? 513 a, byteListing? listing with
    | some a, some bytes =>
      if a + bytes.length ≤ 512 then
        some (bytes.zipIdx.map fun x => .bufWrite8 (BitVec.ofNat 9 (a + x.2)) x.1)
      else none
    | _, _ => none
  | [['B', 'u', 'f', 'D', 'u', 'm', 'p'], a, len] =>
    match numberBelow? 513 a, numberBelow? 513 len with
    | some a, some len =>
      if a + len ≤ 512 then some ((List.range' a len).map fun b => .bufRead8 (BitVec.ofNat 9 b)) else none
    | _, _ => none
  | [['B', 'u', 'f', 'W', 'r', 'i', 't', 'e', '8'], a, v] =>
    match numberBelow? 512 a, numberBelow? 256 v with
    | some a, some v => some [.bufWrite8 (BitVec.ofNat 9 a) (BitVec.ofNat 8 v)]
    | _, _ => none
  | [['B', 'u', 'f', 'R', 'e', 'a', 'd', '8'], a] =>
    (numberBelow? 512 a).map fun a => [.bufRead8 (BitVec.ofNat 9 a)]
  | [['B', 'u', 'f', 'W', 'r', 'i', 't', 'e', '3', '2'], i, w] =>
    match numberBelow? 128 i, numberBelow? (2 ^ 32) w with
    | some i, some w => some [.bufWrite32 (BitVec.ofNat 7 i) (BitVec.ofNat 32 w)]
    | _, _ => none
  | [['B', 'u', 'f', 'R', 'e', 'a', 'd', '3', '2'], i] =>
    (numberBelow? 128 i).map fun i => [.bufRead32 (BitVec.ofNat 7 i)]
  | [['R', 'e', 'g', 'R', 'e', 'a', 'd'], r] => (registerNumber? r).map fun r => [.regRead r]
  | _ => none

/-- The host actions one line of a listing stands for: `Issue` of each command, or port accesses (R77). -/
def listingLine? (line : List Char) : Option (List HostAction) :=
  match assembleLine? line with
  | some commands => some (commands.map fun i => .issue (encode i))
  | none =>
    portAccess? (lineWords [] ((line.takeWhile (· ≠ ';')).map fun ch => if ch = ',' then ' ' else ch))

/-- A listing, line by line: the host's actions in order, for `State.inbox`. -/
def listing? : List (List Char) → Option (List HostAction)
  | [] => some []
  | line :: rest =>
    match listingLine? line, listing? rest with
    | some actions, some more => some (actions ++ more)
    | _, _ => none

end Sys2Proof.Machine
end

