-- ==== Sys2Proof/Machine/HostSequences.lean ====
section
/-! DEFINITION. The two host procedures around the block, HANDSHAKE and EXCHANGE, and the external Sector Channel they call
(45_host_sequences R140 to R146). They are not operations of the block: each issues commands and accesses the ports as any
host does, one atomic step at a time. -/

namespace Sys2Proof.Machine

/-- The device and the scratch sector address: opaque values the caller supplies, passed through unchanged (R140). -/
structure Target where
  device  : Nat
  address : Nat
deriving DecidableEq, Repr

/-- The Sector Channel as an oracle (R140): free inputs under no law. Nothing relates a read to an earlier write. -/
structure ChannelOracle where
  /-- Whether the `n`-th `write_sector` of the procedure answers `Error`. -/
  writeFails : Nat → Bool
  /-- What the `n`-th `read_sector` of the procedure answers: `Error`, or 512 bytes. -/
  readAnswer : Nat → Option (Vector Byte 512)

/-- A call of the Sector Channel (R140). -/
inductive ChannelCall where
  /-- `write_sector(device, target_address, Sector)`. -/
  | write (t : Target) (sector : List Byte)
  /-- `read_sector(device, target_address)`. -/
  | read (t : Target)
deriving DecidableEq, Repr

/-- The target a call names. -/
def ChannelCall.target : ChannelCall → Target
  | .write t _ => t
  | .read t    => t

/-- What a host procedure leaves: what it returned, the channel calls it made in order, and the block. -/
structure HostRun (α : Type) where
  result : α
  calls  : List ChannelCall
  block  : State

/-- What HANDSHAKE returns (R141). -/
inductive HandshakeResult where
  | done
  | channelError
deriving DecidableEq, Repr

/-- `IntegrityStatus` (44 R133, R142). -/
inductive Integrity where
  | ok
  | checksumMismatch (computed received : Word)
deriving DecidableEq, Repr

/-- What EXCHANGE returns (R142, 90_conflicts C5). -/
inductive ExchangeResult where
  | framingViolation
  | channelError
  | answered (payload : List Byte) (integrity : Integrity)
deriving DecidableEq, Repr

/-- One port access after another. -/
def andThen {α β : Type} (o : Host.Outcome α Fault Refusal) (f : α → Host.Outcome β Fault Refusal) :
    Host.Outcome β Fault Refusal :=
  match o with
  | .next a    => f a
  | .fault r   => .fault r
  | .refused r => .refused r

/-- The loop of R141, from frame `k` with `n` frames to go: build a frame, dump it, write it; stop at the first `Error`. -/
def handshakeFrom (o : ChannelOracle) (t : Target) :
    (n k : Nat) → State → Host.Outcome (HostRun HandshakeResult) Fault Refusal
  | 0, _, s => .next ⟨.done, [], s⟩
  | n + 1, k, s =>
    andThen (issue (encode .wknext) s) fun s =>
      let call := ChannelCall.write t (bufDump 0 512 s)
      if o.writeFails k then .next ⟨.channelError, [call], s⟩
      else andThen (handshakeFrom o t n (k + 1) s) fun r => .next { r with calls := call :: r.calls }

/-- `HANDSHAKE(device, addr)`, R141. -/
def handshake (o : ChannelOracle) (t : Target) (s : State) : Host.Outcome (HostRun HandshakeResult) Fault Refusal :=
  andThen (issue (encode (.wkrst 1)) s) fun s => handshakeFrom o t 4 0 s

/-- Steps 6 to 8 of R142: load the response, open it, return the payload and the integrity status. -/
def exchangeOpen (q : Vector Byte 512) (calls : List ChannelCall) (s : State) :
    Host.Outcome (HostRun ExchangeResult) Fault Refusal :=
  andThen (issue (encode .rspopen) (bufLoad 0 q.toList (by simp) s)) fun s =>
    let integrity := if (regRead 0 s).getLsbD 8 then .ok else .checksumMismatch (regRead 1 s) (regRead 2 s)
    .next ⟨.answered (bufDump 0 508 s) integrity, calls, s⟩

/-- `EXCHANGE(device, addr, p)`, R142. -/
def exchange (o : ChannelOracle) (t : Target) (p : List Byte) (s : State) :
    Host.Outcome (HostRun ExchangeResult) Fault Refusal :=
  if h : p.length > 508 then .next ⟨.framingViolation, [], s⟩
  else
    andThen (issue (encode (.cmdseal (BitVec.ofNat 10 p.length))) (bufLoad 0 p (by omega) s)) fun s =>
      if (regRead 0 s).extractLsb' 0 4 ≠ 1 then .next ⟨.framingViolation, [], s⟩
      else
        let written := ChannelCall.write t (bufDump 0 512 s)
        if o.writeFails 0 then .next ⟨.channelError, [written], s⟩
        else
          match o.readAnswer 0 with
          | none   => .next ⟨.channelError, [written, .read t], s⟩
          | some q => exchangeOpen q [written, .read t] s

end Sys2Proof.Machine
end

