-- ==== Sys2Proof/Machine/Parametric.lean ====
section
/-! DEFINITION. The same machine with the configuration as a parameter of the step function (10_state R32). `step` is this
machine at the block's own configuration (Laws/Parametric.lean proves it); a test instantiates it (TOY, 95 section 2). -/

namespace Sys2Proof.Machine

/-- What an operation does under a configuration. Every operation goes on to a next state (60_exceptions R156). -/
def operate (c : Config) (i : Instr) (s : State) : State :=
  match i with
  | .zero      => zeroOp s
  | .scr       => scrOp c s
  | .ckcalc    => ckcalcOp c s
  | .ckembed   => ckembedOp c s
  | .ckverify  => ckverifyOp c s
  | .wktmpl    => wktmplOp c s
  | .wkid k    => wkidOp c k s
  | .wknext    => wknextOp c s
  | .wkrst m   => wkrstOp m s
  | .wkchk     => wkchkOp c s
  | .cmdseal n => cmdsealOp c n s
  | .rspopen   => rspopenOp c s

/-- `Issue(cw)` under a configuration (20_memory R57, 30_encoding R75). -/
def issueWith (c : Config) (cw : Word) (s : State) : State :=
  match decode cw with
  | .ok i    => operate c i s
  | .error _ => illegalCommand s

/-- One host action under a configuration. -/
def performWith (c : Config) (a : HostAction) (s : State) : State :=
  match a with
  | .bufWrite8 a v  => bufWrite8 a v s
  | .bufRead8 a     => s.answer (.byte (bufRead8 a s))
  | .bufWrite32 i w => bufWrite32 i w s
  | .bufRead32 i    => s.answer (.word (bufRead32 i s))
  | .regRead r      => s.answer (.word (regRead r s))
  | .issue cw       => issueWith c cw s
  | .reset          => resetBlock s

/-- One step under a configuration; an ill-formed configuration is refused before any step (00_scope R10, 60_exceptions R156). -/
def stepWith (c : Config) (s : State) : Host.Outcome State Fault Refusal :=
  if c.wellFormed then
    match s.inbox with
    | []           => .next s
    | a :: actions => .next (performWith c a { s with inbox := actions })
  else .refused .illFormedConfiguration

end Sys2Proof.Machine
end

