-- ==== Sys2Proof/Safety.lean ====
section
/-! DEFINITION. What claims about a run rely on: the states the spec allows. The block itself never stops (60_exceptions R156), so
a safe run is one that stays in these states. -/

namespace Sys2Proof.Machine

/-- `STATUS` is a value of 10_state R25 and R27: bits 7:4 and 31:16 are 0 and the result code is one of 0..6. -/
abbrev legalStatus (w : Word) : Prop :=
  w.extractLsb' 4 4 = 0 ∧ w.extractLsb' 16 16 = 0 ∧ (w.extractLsb' 0 4).toNat ≤ 6

/-- The states the spec allows: the buffer in canonical form inside offsets 0..511 (R22), `STATUS` as R25 lays it out, both
counters in 0..4 (R28, R29). -/
abbrev State.Inv (s : State) : Prop :=
  s.sb.wf ∧ legalStatus s.status ∧ s.wseq.toNat ≤ 4 ∧ s.vseq.toNat ≤ 4

end Sys2Proof.Machine
end

