-- ==== Sys2Proof/Certificates/Slice0/Obligations.lean ====
section
/-! DEFINITION. The statements for the provers. Each speaks of the block's own configuration `Config.hardware`, whose open
parameters have no value in Lean, so each holds for every value of them (92 section A). -/

namespace Sys2Proof.Claims
open Sys2Proof.Machine

/-- Every byte of the buffer reads as before. -/
def SameBuffer (s t : State) : Prop := ∀ a, a < 512 → t.byte a = s.byte a

/-- Every byte of the buffer outside `[lo, hi)` reads as before. -/
def SameOutside (lo hi : Nat) (s t : State) : Prop := ∀ a, a < 512 → ¬(lo ≤ a ∧ a < hi) → t.byte a = s.byte a

/-- The buffer holds the sector `f`. -/
def Holds (s : State) (f : Nat → Byte) : Prop := ∀ a, a < 512 → s.byte a = f a

/-- The two checksum registers are unchanged. -/
def SameChecksums (s t : State) : Prop := t.ckCalc = s.ckCalc ∧ t.ckRecv = s.ckRecv

/-- The two counters are unchanged. -/
def SameCounters (s t : State) : Prop := t.wseq = s.wseq ∧ t.vseq = s.vseq

/-- The model's own fields are unchanged: the host's actions and replies, and the index of the free buffer contents. -/
def SameHostSide (s t : State) : Prop := t.draw = s.draw ∧ t.inbox = s.inbox ∧ t.replies = s.replies

/-- All but the buffer is unchanged. -/
def SameButBuffer (s t : State) : Prop :=
  t.status = s.status ∧ SameChecksums s t ∧ SameCounters s t ∧ SameHostSide s t

/-- The illegal set as 30_encoding R75 lists it. -/
def IllegalSet (cw : Word) : Prop :=
  fieldRsv0 cw ≠ 0 ∨ fieldRsv1 cw ≠ 0
    ∨ fieldOp cw ∉ ([0x01, 0x02, 0x10, 0x11, 0x12, 0x20, 0x21, 0x22, 0x23, 0x28, 0x30, 0x31] : List (BitVec 8))
    ∨ (fieldOp cw ∈ ([0x01, 0x02, 0x10, 0x11, 0x12, 0x20, 0x22, 0x28, 0x31] : List (BitVec 8)) ∧ fieldArg cw ≠ 0)
    ∨ (fieldOp cw ∈ ([0x21, 0x23] : List (BitVec 8)) ∧ 3 < (fieldArg cw).toNat)

/-- Operations 10_state R36 gives no write of `SB`. -/
def keepsBuffer : Instr → Bool
  | .ckcalc | .ckverify | .wkrst _ | .wkchk => true
  | .zero | .scr | .ckembed | .wktmpl | .wkid _ | .wknext | .cmdseal _ | .rspopen => false

/-- Operations 10_state R23 and R36 give no write of `CK_CALC`. -/
def keepsComputed : Instr → Bool
  | .zero | .scr | .wktmpl | .wkrst _ => true
  | .ckcalc | .ckembed | .ckverify | .wkid _ | .wknext | .wkchk | .cmdseal _ | .rspopen => false

/-- Operations 10_state R24 and R36 give no write of `CK_RECV`. -/
def keepsReceived : Instr → Bool
  | .ckverify | .wkchk | .rspopen => false
  | .zero | .scr | .ckcalc | .ckembed | .wktmpl | .wkid _ | .wknext | .wkrst _ | .cmdseal _ => true

/-- Operations 10_state R28 and R36 give no write of `WSEQ`. -/
def keepsWseq : Instr → Bool
  | .wknext => false
  | .wkrst m => !m.getLsbD 0
  | .zero | .scr | .ckcalc | .ckembed | .ckverify | .wktmpl | .wkid _ | .wkchk | .cmdseal _ | .rspopen => true

/-- Operations 10_state R29 and R36 give no write of `VSEQ`. -/
def keepsVseq : Instr → Bool
  | .wkchk => false
  | .wkrst m => !m.getLsbD 1
  | .zero | .scr | .ckcalc | .ckembed | .ckverify | .wktmpl | .wkid _ | .wknext | .cmdseal _ | .rspopen => true

/-- The operations 20_memory R59 calls idempotent on the whole state. -/
def idempotent : Instr → Bool
  | .zero | .wktmpl | .ckcalc | .ckembed | .ckverify | .wkid _ | .wkrst _ => true
  | .scr | .wknext | .wkchk | .cmdseal _ | .rspopen => false

/-- Load each sector of a list into the buffer in turn and issue `WKCHK` on it; the state after the last, and the
`RESULT` codes in order. -/
def checkSectors : List (Nat → Byte) → State → Host.Outcome (State × List (BitVec 4)) Fault Refusal
  | [], s => .next (s, [])
  | f :: fs, s =>
    andThen (exec .wkchk (s.fill 0 512 f)) fun t =>
      andThen (checkSectors fs t) fun r => .next (r.1, t.status.extractLsb' 0 4 :: r.2)

/-- The same for the wake-up frames of a list of indices (43 R125). -/
def checkFrames (ks : List (Fin 4)) (s : State) : Host.Outcome (State × List (BitVec 4)) Fault Refusal :=
  checkSectors (ks.map (wakeFrame Config.hardware)) s

/-- How far a list of checked frames has come in the order 0, 1, 2, 3: the longest start of it that the list ends in. -/
def progress (ks : List (Fin 4)) : Nat :=
  if [0, 1, 2, 3] <:+ ks then 4
  else if [0, 1, 2] <:+ ks then 3
  else if [0, 1] <:+ ks then 2
  else if [0] <:+ ks then 1
  else 0

/-- The frames seen since the tracker was last cleared, `ks` before and `ks'` after the host's next action (43 R124): `WKCHK` on
a wake-up frame adds it, on a sector without the magic changes nothing, and on any other sector clears the list, as do
`WKRST` with bit 1 and reset; nothing else changes it. -/
def NextHistory (s : State) (ks ks' : List (Fin 4)) : Prop :=
  match s.inbox with
  | .issue cw :: _ =>
    match decode cw with
    | .ok .wkchk =>
      (∃ k, Holds s (wakeFrame Config.hardware k) ∧ ks' = ks ++ [k]) ∨
      ((∃ j : Fin 4, s.byte j.val ≠ Config.hardware.wakeMagic j) ∧ ks' = ks) ∨
      ((∀ j : Fin 4, s.byte j.val = Config.hardware.wakeMagic j) ∧
        (∀ k, ¬ Holds s (wakeFrame Config.hardware k)) ∧ ks' = [])
    | .ok (.wkrst m) => ks' = if m.getLsbD 1 then [] else ks
    | _ => ks' = ks
  | .reset :: _ => ks' = []
  | _ => ks' = ks

/-- A sector as the 512 bytes the host takes out. -/
def dumpOf (f : Nat → Byte) : List Byte := (List.range 512).map f

end Sys2Proof.Claims

open Sys2Proof Sys2Proof.Machine Sys2Proof.Claims

/-! ### Encoding -/

/-- The encoder and the decoder agree: the command word of every well-formed operation, with every operand, decodes to it
(30_encoding R71 to R74). -/
def Obligations.DecodeOfEncode : Prop :=
  ∀ i : Instr, i.wf = true → decode (encode i) = .ok i

/-- Every legal command word has one reading: the operation it decodes to is well-formed and encodes to that word, which
is `OP + 65536 * ARG` (30_encoding R71). -/
def Obligations.LegalWordIsOpPlusArg : Prop :=
  ∀ (cw : Word) (i : Instr), decode cw = .ok i →
    i.wf = true ∧ encode i = cw ∧ cw.toNat = i.op.toNat + 65536 * i.arg.toNat

/-- Decoding is the match and mask table of R73: a word decodes to an operation iff it selects that operation's row and
carries its operand in `ARG`, and is illegal iff no row matches (30_encoding R74). -/
def Obligations.DecodeIsTheOpcodeTable : Prop :=
  (∀ (cw : Word) (i : Instr), decode cw = .ok i ↔ i.row.selects cw = true ∧ i.arg = fieldArg cw) ∧
  ∀ cw : Word, (∃ e, decode cw = .error e) ↔ ∀ r ∈ opcodeTable, r.selects cw = false

/-- No command word selects two rows of the table (30_encoding R73). -/
def Obligations.OpcodeRowsExclusive : Prop :=
  opcodeTable.Pairwise fun r r' => ∀ cw : Word, ¬(r.selects cw = true ∧ r'.selects cw = true)

/-- Words written out from 30_encoding R73 decode to the operations they stand for. -/
def Obligations.DecodeWrittenWords : Prop :=
  decode 0x00000001 = .ok .zero ∧ decode 0x00000002 = .ok .scr ∧ decode 0x00000010 = .ok .ckcalc ∧
  decode 0x00030021 = .ok (.wkid 3) ∧ decode 0x00010023 = .ok (.wkrst 1) ∧ decode 0x00000028 = .ok .wkchk ∧
  decode 0x000C0030 = .ok (.cmdseal 12) ∧ decode 0x01FD0030 = .ok (.cmdseal 509) ∧
  decode 0x00000031 = .ok .rspopen

/-! ### Steps and ports -/

/-- A step whose next host action is an `Issue` runs the operation the word decodes to, the action taken off the list; a
rejected word only sets `STATUS`; any other action is performed (20_memory R57; the list is the model's, log entry 1). -/
def Obligations.StepRunsDecodedOperation : Prop :=
  (∀ (s : State) (cw : Word) (i : Instr) (rest : List HostAction),
    s.inbox = .issue cw :: rest → decode cw = .ok i → step s = exec i { s with inbox := rest }) ∧
  (∀ (s : State) (cw : Word) (e : Illegal) (rest : List HostAction),
    s.inbox = .issue cw :: rest → decode cw = .error e → step s = .next { s with inbox := rest, status := 0x00000004 }) ∧
  ∀ (s : State) (a : HostAction) (rest : List HostAction),
    s.inbox = a :: rest → step s = perform a { s with inbox := rest }

/-- Every illegal word sets `STATUS` to 4 and does nothing else, and the words `decode` rejects are exactly the illegal set
as 30_encoding R75 lists it. -/
def Obligations.IllegalWordOnlySetsStatus : Prop :=
  (∀ (s : State) (cw : Word), IllegalSet cw → issue cw s = .next { s with status := 0x00000004 }) ∧
  ∀ cw : Word, IllegalSet cw ↔ ∃ e, decode cw = .error e

/-- The model's choice, log entry 2: with no host action a step changes nothing. -/
def Obligations.StepWithoutActionIsIdle : Prop :=
  ∀ s : State, s.inbox = [] → step s = .next s

/-- Every step of every state goes on to a next state: no fault, no refusal (60_exceptions R154, R156). -/
def Obligations.EveryStepGoesOn : Prop :=
  ∀ s : State, ∃ t, step s = .next t

/-- `BufWrite8(a, v)` writes the byte and nothing else (20_memory R53). -/
def Obligations.BufWrite8WritesOneByte : Prop :=
  ∀ (a : BitVec 9) (v : Byte) (s : State), ∃ t, perform (.bufWrite8 a v) s = .next t ∧
    t.byte a.toNat = v ∧ SameOutside a.toNat (a.toNat + 1) s t ∧ SameButBuffer s t

/-- `BufRead8(a)` returns the byte and has no side effect (20_memory R54; that the value goes to `replies` is the model's, log
entry 4). -/
def Obligations.BufRead8ReturnsByte : Prop :=
  ∀ (a : BitVec 9) (s : State),
    perform (.bufRead8 a) s = .next { s with replies := .byte (s.byte a.toNat) :: s.replies }

/-- `BufWrite32(i, w)` puts the bytes of `bytes_le(w)` at offsets `4i .. 4i+3`, lowest byte first, exactly as four
`BufWrite8` do, and `BufRead32(i)` returns the word made of those four bytes, and then the word written (20_memory R52, R55;
`replies`: log entry 4). -/
def Obligations.WordPortIsFourBytePorts : Prop :=
  ∀ (i : BitVec 7) (w : Word) (s : State), ∃ t, perform (.bufWrite32 i w) s = .next t ∧
    (∀ j : Fin 4, t.byte (4 * i.toNat + j.val) = w.extractLsb' (8 * j.val) 8) ∧
    SameOutside (4 * i.toNat) (4 * i.toNat + 4) s t ∧ SameButBuffer s t ∧
    (∀ a, a < 512 → t.byte a =
      (bufWrite8 (BitVec.ofNat 9 (4 * i.toNat + 3)) (byteOf w 3)
        (bufWrite8 (BitVec.ofNat 9 (4 * i.toNat + 2)) (byteOf w 2)
          (bufWrite8 (BitVec.ofNat 9 (4 * i.toNat + 1)) (byteOf w 1)
            (bufWrite8 (BitVec.ofNat 9 (4 * i.toNat)) (byteOf w 0) s)))).byte a) ∧
    perform (.bufRead32 i) t = .next { t with replies := .word w :: t.replies } ∧
    ∃ v : Word, perform (.bufRead32 i) s = .next { s with replies := .word v :: s.replies } ∧
      ∀ j : Fin 4, v.extractLsb' (8 * j.val) 8 = s.byte (4 * i.toNat + j.val)

/-- `RegRead` returns `STATUS`, `CK_CALC`, `CK_RECV` and the `SEQ` view by number, without side effect (20_memory R56,
10_state R30, R31; `replies`: log entry 4). -/
def Obligations.RegReadReturnsRegister : Prop :=
  ∀ s : State,
    perform (.regRead 0) s = .next { s with replies := .word s.status :: s.replies } ∧
    perform (.regRead 1) s = .next { s with replies := .word s.ckCalc :: s.replies } ∧
    perform (.regRead 2) s = .next { s with replies := .word s.ckRecv :: s.replies } ∧
    ∃ v : Word, perform (.regRead 3) s = .next { s with replies := .word v :: s.replies } ∧
      v.extractLsb' 0 3 = s.wseq ∧ v.getLsbD 3 = false ∧ v.extractLsb' 4 3 = s.vseq ∧
      (v.getLsbD 7 = true ↔ s.vseq = 4) ∧ v.extractLsb' 8 24 = 0

/-- The state right after reset: registers and counters 0, and no byte of the buffer has a value of its own (10_state
R35; how the model holds that is log entry 5). -/
def Obligations.ResetStateValues : Prop :=
  State.reset.status = 0 ∧ State.reset.ckCalc = 0 ∧ State.reset.ckRecv = 0 ∧ State.reset.wseq = 0 ∧
  State.reset.vseq = 0 ∧ State.reset.awake = false ∧ ∀ a, State.reset.sb.get? a = none

/-- Reset as a host action, from every state: registers and counters 0, no byte of the buffer has a value. That the
buffer's bytes are then a new draw, and that the host keeps its own side, is the model's (log entries 5, 15). -/
def Obligations.ResetActionClearsRegisters : Prop :=
  ∀ s : State, ∃ t, perform .reset s = .next t ∧
    t.status = 0 ∧ t.ckCalc = 0 ∧ t.ckRecv = 0 ∧ t.wseq = 0 ∧ t.vseq = 0 ∧ (∀ a, t.sb.get? a = none) ∧
    t.draw = s.draw + 1 ∧ t.inbox = s.inbox ∧ t.replies = s.replies

/-! ### The state as a whole -/

/-- Every step keeps the states the spec allows: canonical buffer, `STATUS` with its zero bits and a code of 0..6, both
counters in 0..4 (10_state R22, R25, R27 to R29). -/
def Obligations.StepKeepsInvariant : Prop :=
  ∀ s t : State, s.Inv → step s = .next t → t.Inv

/-- The state after reset is one of the states the spec allows. -/
def Obligations.ResetHasInvariant : Prop := State.reset.Inv

/-- `STATUS` is rewritten in full by every command word, legal or not: whatever it was before has no influence, it is
afterwards a packed result, never `NONE`, and no other host action but reset changes it (10_state R26, R27). -/
def Obligations.EveryIssueRewritesStatus : Prop :=
  (∀ (cw w : Word) (s : State), issue cw { s with status := w } = issue cw s) ∧
  (∀ (cw : Word) (s : State), ∃ t r f, issue cw s = .next t ∧ t.status = pack r f ∧ r ≠ .none ∧ legalStatus t.status) ∧
  (∀ (r : Result) (f : Flags), (pack r f).toNat = r.code + 256 * f.ckok.toNat + 512 * f.magic.toNat
    + 1024 * f.idhit.toNat + 2048 * f.gap.toNat + 4096 * f.fill.toNat + 8192 * f.trail.toNat + 16384 * f.idx.val) ∧
  ∀ (a : HostAction) (s : State), (∀ cw, a ≠ .issue cw) → a ≠ .reset → ∃ t, perform a s = .next t ∧ t.status = s.status

/-- Which operation writes what (10_state R23, R24, R28, R29, R36): what an operation does not write is unchanged. -/
def Obligations.OperationsKeepTheWriteMatrix : Prop :=
  ∀ (i : Instr) (s : State), ∃ t, exec i s = .next t ∧
    (keepsBuffer i = true → SameBuffer s t) ∧
    (keepsComputed i = true → t.ckCalc = s.ckCalc) ∧
    (keepsReceived i = true → t.ckRecv = s.ckRecv) ∧
    (keepsWseq i = true → t.wseq = s.wseq) ∧
    (keepsVseq i = true → t.vseq = s.vseq) ∧
    (i = .ckembed → SameOutside 508 512 s t) ∧
    (∀ k, i = .wkid k → ∀ a, a < 508 → ¬(4 ≤ a ∧ a < 8) → t.byte a = s.byte a) ∧
    SameHostSide s t

/-- The validator's tracker gates nothing: no operation but `WKCHK` and `WKRST` reads `VSEQ` (10_state R29, 60_exceptions R160). -/
def Obligations.AwakeGatesNothing : Prop :=
  ∀ (i : Instr) (s : State) (v : BitVec 3), i ≠ .wkchk → (∀ m, i ≠ .wkrst m) →
    ∃ t, exec i s = .next t ∧ exec i { s with vseq := v } = .next { t with vseq := v }

/-- The operations 20_memory R59 calls idempotent leave the same state issued twice as issued once. -/
def Obligations.IdempotentOperations : Prop :=
  ∀ (i : Instr) (s : State), idempotent i = true → ∃ t u, exec i s = .next t ∧ exec i t = .next u ∧
    SameBuffer t u ∧ SameButBuffer t u

/-! ### Buffer clear and scrambler -/

/-- `ZERO` (40 R90). -/
def Obligations.ZeroClearsBuffer : Prop :=
  encode .zero = 0x00000001 ∧
  ∀ s : State, ∃ t, exec .zero s = .next t ∧ Holds t (fun _ => 0) ∧ (∀ i : Fin 128, t.word i.val = 0) ∧ t.status = 0x00000001 ∧
    SameChecksums s t ∧ SameCounters s t ∧ SameHostSide s t

/-- `SCR` (40 R91): in words, including word 127, and in bytes. -/
def Obligations.ScrXorsEveryWord : Prop :=
  encode .scr = 0x00000002 ∧ Pseudo.descr.expand = [.scr] ∧
  ∀ s : State, ∃ t, exec .scr s = .next t ∧
    (∀ i : Fin 128, t.word i.val = s.word i.val ^^^ Config.hardware.xorTable i) ∧
    (∀ (i : Fin 128) (j : Fin 4), t.byte (4 * i.val + j.val) =
      s.byte (4 * i.val + j.val) ^^^ (Config.hardware.xorTable i).extractLsb' (8 * j.val) 8) ∧
    t.status = 0x00000001 ∧ SameChecksums s t ∧ SameCounters s t ∧ SameHostSide s t

/-- Involution (40 R92): on the block, and under every configuration, hence every `XOR_TABLE`, `SCR` twice restores every
byte; and so `SCR` is a bijection on sectors. -/
def Obligations.ScrTwiceRestoresBuffer : Prop :=
  (∀ s : State, ∃ t u, exec .scr s = .next t ∧ exec .scr t = .next u ∧ SameBuffer s u) ∧
  (∀ (c : Config) (s : State), SameBuffer s (operate c .scr (operate c .scr s))) ∧
  (∀ (c : Config) (s s' : State), SameBuffer (operate c .scr s) (operate c .scr s') → SameBuffer s s') ∧
  ∀ (c : Config) (f : Nat → Byte), ∃ s : State, Holds (operate c .scr s) f

/-- `SCR` keeps differences, so a bit flipped on the wire is the same bit flipped in the plain form, and `SCR` of the zero
buffer is the table (40 R93 (a) and (b)). -/
def Obligations.ScrKeepsDifferences : Prop :=
  (∀ s s' : State, ∃ t t', exec .scr s = .next t ∧ exec .scr s' = .next t' ∧
    ∀ a, a < 512 → t.byte a ^^^ t'.byte a = s.byte a ^^^ s'.byte a) ∧
  ∀ s : State, Holds s (fun _ => 0) → ∃ t, exec .scr s = .next t ∧
    ∀ i : Fin 128, t.word i.val = Config.hardware.xorTable i

/-! ### Checksum engine -/

/-- `CKCALC` (41 R102). -/
def Obligations.CkcalcLatchesChecksum : Prop :=
  encode .ckcalc = 0x00000010 ∧
  ∀ s : State, ∃ t, exec .ckcalc s = .next t ∧
    t.ckCalc = Config.hardware.cksumFn (fun i => s.word i.val) ∧ t.status = 0x00000001 ∧
    SameBuffer s t ∧ t.ckRecv = s.ckRecv ∧ SameCounters s t ∧ SameHostSide s t

/-- `CKEMBED` (41 R103, with the storage of R101). -/
def Obligations.CkembedStoresChecksum : Prop :=
  encode .ckembed = 0x00000011 ∧
  ∀ s : State, ∃ t, exec .ckembed s = .next t ∧
    t.ckCalc = Config.hardware.cksumFn (fun i => s.word i.val) ∧ t.word 127 = t.ckCalc ∧
    (∀ j : Fin 4, t.byte (508 + j.val) = t.ckCalc.extractLsb' (8 * j.val) 8) ∧
    SameOutside 508 512 s t ∧ t.status = 0x00000001 ∧ t.ckRecv = s.ckRecv ∧ SameCounters s t ∧ SameHostSide s t

/-- `CKVERIFY` (41 R104). -/
def Obligations.CkverifyComparesChecksums : Prop :=
  encode .ckverify = 0x00000012 ∧
  ∀ s : State, ∃ t, exec .ckverify s = .next t ∧
    t.ckCalc = Config.hardware.cksumFn (fun i => s.word i.val) ∧ t.ckRecv = s.word 127 ∧
    (t.ckCalc = t.ckRecv → t.status = 0x00000101) ∧ (t.ckCalc ≠ t.ckRecv → t.status = 0x00000002) ∧
    SameBuffer s t ∧ SameCounters s t ∧ SameHostSide s t

/-- The checksum an operation computes depends on bytes 0..507 alone: not on the stored checksum, a register or a counter,
and not on which operation asked (41 R100). -/
def Obligations.ChecksumCoversPayloadAlone : Prop :=
  ∀ s s' : State, (∀ a, a < 508 → s.byte a = s'.byte a) →
    ∃ c : Word, ∃ t t1 t2 t3, exec .ckcalc s = .next t ∧ exec .ckembed s' = .next t1 ∧ exec .ckverify s' = .next t2 ∧
      exec .wkchk s' = .next t3 ∧ t.ckCalc = c ∧ t1.ckCalc = c ∧ t2.ckCalc = c ∧ t3.ckCalc = c

/-- Embed, then verify, succeeds on every buffer (41 R105). -/
def Obligations.EmbedThenVerifySucceeds : Prop :=
  ∀ s : State, ∃ t u, exec .ckembed s = .next t ∧ exec .ckverify t = .next u ∧
    u.status = 0x00000101 ∧ u.ckCalc = u.ckRecv

/-! ### Wake-up frame builder -/

/-- `WKTMPL` (42 R110): all 512 bytes. -/
def Obligations.WktmplBuildsTemplate : Prop :=
  encode .wktmpl = 0x00000020 ∧
  ∀ s : State, ∃ t, exec .wktmpl s = .next t ∧
    t.byte 0 = 0x19 ∧ t.byte 1 = 0x7B ∧ t.byte 2 = 0x03 ∧ t.byte 3 = 0x25 ∧
    (∀ a, 4 ≤ a → a < 0x10 → t.byte a = 0) ∧
    (∀ a, 0x10 ≤ a → a < 0x1F8 → (t.byte a).toNat = a % 256) ∧
    (∀ j : Fin 8, t.byte (0x1F8 + j.val) = Config.hardware.wakeTrailer j) ∧
    t.word 0 = 0x25037B19 ∧ t.word 4 = 0x13121110 ∧ t.word 63 = 0xFFFEFDFC ∧ t.word 64 = 0x03020100 ∧
    t.word 125 = 0xF7F6F5F4 ∧
    t.status = 0x00000001 ∧ SameChecksums s t ∧ SameCounters s t ∧ SameHostSide s t

/-- `WKID k` (42 R111): the identifier, then the checksum of the payload with the identifier in place; `ARG > 3` is
`ILLEGAL_COMMAND`. -/
def Obligations.WkidWritesIdentifier : Prop :=
  (∀ (k : Fin 4) (s : State), encode (.wkid (BitVec.ofNat 10 k.val)) = BitVec.ofNat 32 (0x21 + 65536 * k.val) ∧
    ∃ t, exec (.wkid (BitVec.ofNat 10 k.val)) s = .next t ∧
      (∀ j : Fin 4, t.byte (4 + j.val) = Config.hardware.wakeId k j) ∧
      t.ckCalc = Config.hardware.cksumFn (fun i => t.word i.val) ∧ t.word 127 = t.ckCalc ∧
      (∀ a, a < 508 → ¬(4 ≤ a ∧ a < 8) → t.byte a = s.byte a) ∧
      t.status = 0x00000001 ∧ t.ckRecv = s.ckRecv ∧ SameCounters s t ∧ SameHostSide s t) ∧
  ∀ (k : BitVec 10) (s : State), 3 < k.toNat →
    issue (BitVec.ofNat 32 (0x21 + 65536 * k.toNat)) s = .next { s with status := 0x00000004 }

/-- `WakeFrame(k)` (42 R112), byte by byte; two frames differ in bytes [4, 8), may differ in [508, 512), and agree elsewhere. -/
def Obligations.WakeFrameIsTheLayout : Prop :=
  (∀ k : Fin 4, let f := wakeFrame Config.hardware k
    (∀ j : Fin 4, f j.val = Config.hardware.wakeMagic j) ∧
    (∀ j : Fin 4, f (4 + j.val) = Config.hardware.wakeId k j) ∧
    (∀ a, 8 ≤ a → a < 0x10 → f a = 0) ∧
    (∀ a, 0x10 ≤ a → a < 0x1F8 → (f a).toNat = a % 256) ∧
    (∀ j : Fin 4, f (0x1F8 + j.val) = Config.hardware.wakeTrailer (j.castLE (by omega))) ∧
    ∀ j : Fin 4, f (0x1FC + j.val) =
      (Config.hardware.cksumFn fun i => wordOfBytes f i.val).extractLsb' (8 * j.val) 8) ∧
  ∀ k k' : Fin 4, k ≠ k' →
    (∃ a, 4 ≤ a ∧ a < 8 ∧ wakeFrame Config.hardware k a ≠ wakeFrame Config.hardware k' a) ∧
    ∀ a, a < 508 → ¬(4 ≤ a ∧ a < 8) → wakeFrame Config.hardware k a = wakeFrame Config.hardware k' a

/-- Builder law (42 R113): template and identifier give the frame; an identifier rewritten on a frame gives the other frame;
a frame passes `CKVERIFY`. -/
def Obligations.BuilderGivesWakeFrames : Prop :=
  ∀ (s : State) (k : Fin 4),
    (∃ t u, exec .wktmpl s = .next t ∧ exec (.wkid (BitVec.ofNat 10 k.val)) t = .next u ∧
      Holds u (wakeFrame Config.hardware k) ∧ u.ckCalc = wakeChecksum Config.hardware k) ∧
    (Holds s (wakeFrame Config.hardware k) → ∀ k' : Fin 4,
      ∃ t, exec (.wkid (BitVec.ofNat 10 k'.val)) s = .next t ∧ Holds t (wakeFrame Config.hardware k')) ∧
    (Holds s (wakeFrame Config.hardware k) → ∃ t, exec .ckverify s = .next t ∧ t.status = 0x00000101)

/-- `WKNEXT` (42 R114): at `WSEQ` below 4 the whole frame `WSEQ`, whatever the buffer held; at 4 and above `SEQUENCE_ERROR` and
nothing else; and from `WSEQ = 0` four in a row leave the four frames in order and `WSEQ = 4`, a fifth only the error. -/
def Obligations.WknextBuildsNextFrame : Prop :=
  encode .wknext = 0x00000022 ∧
  (∀ (s : State) (k : Fin 4), s.wseq.toNat = k.val → ∃ t, exec .wknext s = .next t ∧
    Holds t (wakeFrame Config.hardware k) ∧ t.ckCalc = wakeChecksum Config.hardware k ∧
    t.wseq.toNat = k.val + 1 ∧ t.status = 0x00000001 ∧ t.ckRecv = s.ckRecv ∧ t.vseq = s.vseq ∧ SameHostSide s t) ∧
  (∀ s : State, 4 ≤ s.wseq.toNat → exec .wknext s = .next { s with status := 0x00000005 }) ∧
  ∀ s : State, s.wseq = 0 → ∃ t0 t1 t2 t3,
    exec .wknext s = .next t0 ∧ exec .wknext t0 = .next t1 ∧ exec .wknext t1 = .next t2 ∧ exec .wknext t2 = .next t3 ∧
    Holds t0 (wakeFrame Config.hardware 0) ∧ Holds t1 (wakeFrame Config.hardware 1) ∧
    Holds t2 (wakeFrame Config.hardware 2) ∧ Holds t3 (wakeFrame Config.hardware 3) ∧ t3.wseq = 4 ∧
    exec .wknext t3 = .next { t3 with status := 0x00000005 }

/-- `WKRST m` (42 R115). -/
def Obligations.WkrstClearsCounters : Prop :=
  (∀ (m : BitVec 10) (s : State), m.toNat ≤ 3 →
    encode (.wkrst m) = BitVec.ofNat 32 (0x23 + 65536 * m.toNat) ∧
    exec (.wkrst m) s = .next { s with
      wseq := if m.getLsbD 0 then 0 else s.wseq, vseq := if m.getLsbD 1 then 0 else s.vseq, status := 0x00000001 }) ∧
  ∀ (m : BitVec 10) (s : State), 3 < m.toNat →
    issue (BitVec.ofNat 32 (0x23 + 65536 * m.toNat)) s = .next { s with status := 0x00000004 }

/-- The model's choice, log entry 14: the terms `WKID k` and `WKRST m` with an operand above 3, which `decode` never yields, do
what their command word does. -/
def Obligations.OperandAboveThreeIsIllegalCommand : Prop :=
  ∀ (x : BitVec 10) (s : State), 3 < x.toNat →
    exec (.wkid x) s = .next { s with status := 0x00000004 } ∧
    exec (.wkrst x) s = .next { s with status := 0x00000004 } ∧
    exec (.wkid x) s = issue (encode (.wkid x)) s ∧ exec (.wkrst x) s = issue (encode (.wkrst x)) s

/-! ### Wake-up frame validator -/

/-- `WKCHK` (43 R120, R121, R123): the seven flags, each by its matcher; both checksums latched; the result and `VSEQ` by
the table of R123. -/
def Obligations.WkchkClassifiesBuffer : Prop :=
  encode .wkchk = 0x00000028 ∧
  ∀ s : State, ∃ t f, exec .wkchk s = .next t ∧
    (f.magic = true ↔ ∀ j : Fin 4, s.byte j.val = Config.hardware.wakeMagic j) ∧
    (f.magic = true ↔ s.byte 0 = 0x19 ∧ s.byte 1 = 0x7B ∧ s.byte 2 = 0x03 ∧ s.byte 3 = 0x25) ∧
    (f.idhit = true ↔ ∃ k : Fin 4, ∀ j : Fin 4, s.byte (4 + j.val) = Config.hardware.wakeId k j) ∧
    (∀ k : Fin 4, (∀ j : Fin 4, s.byte (4 + j.val) = Config.hardware.wakeId k j) → f.idx = k) ∧
    (f.idhit = false → f.idx = 0) ∧
    (f.gap = true ↔ ∀ a, 8 ≤ a → a < 16 → s.byte a = 0) ∧
    (f.fill = true ↔ ∀ a, 0x10 ≤ a → a < 0x1F8 → (s.byte a).toNat = a % 256) ∧
    (f.trail = true ↔ ∀ j : Fin 4, s.byte (0x1F8 + j.val) = Config.hardware.wakeTrailer (j.castLE (by omega))) ∧
    t.ckCalc = Config.hardware.cksumFn (fun i => s.word i.val) ∧ t.ckRecv = s.word 127 ∧
    (f.ckok = true ↔ t.ckCalc = t.ckRecv) ∧
    (f.magic = false → t.status = pack .notWakeFrame f ∧ t.vseq = s.vseq) ∧
    (f.magic = true → f.struct = false → t.status = pack .notWakeFrame f ∧ t.vseq = 0) ∧
    (f.struct = true → f.ckok = false → t.status = pack .checksumMismatch f ∧ t.vseq = 0) ∧
    (f.struct = true → f.ckok = true → f.idx = 0 → t.status = pack .ok f ∧ t.vseq = 1) ∧
    (f.struct = true → f.ckok = true → f.idx ≠ 0 → f.idx.val = s.vseq.toNat →
      t.status = pack .ok f ∧ t.vseq = s.vseq + 1) ∧
    (f.struct = true → f.ckok = true → f.idx ≠ 0 → f.idx.val ≠ s.vseq.toNat →
      t.status = pack .sequenceError f ∧ t.vseq = 0) ∧
    (f.struct = true → f.ckok = true → pack .ok f = BitVec.ofNat 32 (0x3F01 + 0x4000 * f.idx.val) ∧
      pack .sequenceError f = BitVec.ofNat 32 (0x3F05 + 0x4000 * f.idx.val)) ∧
    SameBuffer s t ∧ t.wseq = s.wseq ∧ SameHostSide s t

/-- Exactness (43 R122): `WKCHK` reports all five structural flags and `CKOK` with `IDX = k` iff the buffer is
`WakeFrame(k)` byte for byte. -/
def Obligations.WkchkAcceptsExactlyTheFrames : Prop :=
  ∀ s : State, ∃ t, exec .wkchk s = .next t ∧ ∀ k : Fin 4,
    (Holds s (wakeFrame Config.hardware k) ↔
      t.status.extractLsb' 8 6 = 0x3F ∧ (t.status.extractLsb' 14 2).toNat = k.val)

/-- Ordering laws (43 R125): (a) frames 0, 1, 2, 3 from any `VSEQ` end with `VSEQ = 4`, all results `OK`; (b) any other four
frames from `VSEQ = 0` do not; (c) a restarted sequence 0, 0, 1, 2, 3 does. -/
def Obligations.WakeOrderIsObservable : Prop :=
  (∀ s : State, ∃ t, checkFrames [0, 1, 2, 3] s = .next (t, [1, 1, 1, 1]) ∧ t.vseq = 4) ∧
  (∀ (s : State) (ks : List (Fin 4)), s.vseq = 0 → ks.length = 4 → ks ≠ [0, 1, 2, 3] →
    ∃ t r, checkFrames ks s = .next (t, r) ∧ t.vseq ≠ 4) ∧
  ∀ s : State, ∃ t r, checkFrames [0, 0, 1, 2, 3] s = .next (t, r) ∧ t.vseq = 4

/-- From `VSEQ = 0`, after any list of checked frames, of any length, `VSEQ = 4` exactly if the last four were 0, 1, 2, 3
(43 R124 (d), for sectors that are wake-up frames). -/
def Obligations.AwakeExactlyAfterFullSequence : Prop :=
  ∀ (s : State) (ks : List (Fin 4)), s.vseq = 0 →
    ∃ t r, checkFrames ks s = .next (t, r) ∧ (t.vseq = 4 ↔ [0, 1, 2, 3] <:+ ks)

/-- The tracker follows the frames seen (43 R124 (a) to (e)): whatever the host's next action is, if `VSEQ` is the progress of
0, 1, 2, 3 among the frames seen before it, it is so after it; and every action gives some list of frames seen. The
host's actions come from `inbox`, log entry 1. -/
def Obligations.StepKeepsTrackerAtProgress : Prop :=
  (∀ (s t : State) (ks ks' : List (Fin 4)), s.vseq.toNat = progress ks → NextHistory s ks ks' → step s = .next t →
    t.vseq.toNat = progress ks') ∧
  ∀ (s : State) (ks : List (Fin 4)), ∃ ks', NextHistory s ks ks'

/-- Sectors without the magic prefix do not disturb the tracker, whatever they are and however many (43 R124 (a)). -/
def Obligations.UnmarkedSectorsKeepTracker : Prop :=
  ∀ (s : State) (fs : List (Nat → Byte)), (∀ f ∈ fs, ∃ j : Fin 4, f j.val ≠ Config.hardware.wakeMagic j) →
    ∃ t r, checkSectors fs s = .next (t, r) ∧ t.vseq = s.vseq

/-! ### Command and response frames -/

/-- `CMDSEAL n` with `n` at most 508 (44 R130, R132): with the payload `p` in the first `n` bytes, whatever lies after it, the
buffer becomes `Seal(p)` and `CK_CALC` the plain checksum. -/
def Obligations.CmdsealSealsPayload : Prop :=
  ∀ (s : State) (p : List Byte), p.length ≤ 508 → (∀ a, a < p.length → s.byte a = p.getD a 0) →
    encode (.cmdseal (BitVec.ofNat 10 p.length)) = BitVec.ofNat 32 (0x30 + 65536 * p.length) ∧
    ∃ t, exec (.cmdseal (BitVec.ofNat 10 p.length)) s = .next t ∧
      Holds t (sealedFrame Config.hardware p) ∧ t.ckCalc = plainChecksum Config.hardware p ∧
      t.status = 0x00000001 ∧ t.ckRecv = s.ckRecv ∧ SameCounters s t ∧ SameHostSide s t

/-- `CMDSEAL n` (44 R130): above 508 only `FRAMING_VIOLATION`; else zero-fill of `[n, 512)`, then exactly the writes of
`CKEMBED`, then exactly those of `SCR`, said both line by line and as the composition of the two operations. -/
def Obligations.CmdsealIsZeroFillEmbedScramble : Prop :=
  (∀ n : BitVec 10, encode (.cmdseal n) = BitVec.ofNat 32 (0x30 + 65536 * n.toNat)) ∧
  (∀ (n : BitVec 10) (s : State), 508 < n.toNat → exec (.cmdseal n) s = .next { s with status := 0x00000003 }) ∧
  ∀ (n : BitVec 10) (s : State), n.toNat ≤ 508 → ∃ t, exec (.cmdseal n) s = .next t ∧
    (let f := fun a => if a < n.toNat then s.byte a else 0
     let c := Config.hardware.cksumFn fun i => wordOfBytes f i.val
     t.ckCalc = c ∧
     (∀ i : Fin 127, t.word i.val = wordOfBytes f i.val ^^^ Config.hardware.xorTable (i.castLE (by omega))) ∧
     t.word 127 = c ^^^ Config.hardware.xorTable 127) ∧
    t.status = 0x00000001 ∧ t.ckRecv = s.ckRecv ∧ SameCounters s t ∧ SameHostSide s t ∧
    ∃ u v, exec .ckembed (s.fill n.toNat (512 - n.toNat) fun _ => 0) = .next u ∧ exec .scr u = .next v ∧
      SameBuffer v t ∧ SameButBuffer v t

/-- `CMDSEAL n` with `n > 508` only sets `STATUS` to `FRAMING_VIOLATION` (44 R131). -/
def Obligations.CmdsealRejectsLongPayload : Prop :=
  ∀ (n : BitVec 10) (s : State), 508 < n.toNat → exec (.cmdseal n) s = .next { s with status := 0x00000003 }

/-- `RSPOPEN` (44 R133): the descrambled sector stays in the buffer in both outcomes, with both checksums latched. -/
def Obligations.RspopenDescramblesAndVerifies : Prop :=
  encode .rspopen = 0x00000031 ∧
  ∀ s : State, ∃ t, exec .rspopen s = .next t ∧
    (∀ i : Fin 128, t.word i.val = s.word i.val ^^^ Config.hardware.xorTable i) ∧
    t.ckCalc = Config.hardware.cksumFn (fun i => t.word i.val) ∧ t.ckRecv = t.word 127 ∧
    (t.ckCalc = t.ckRecv → t.status = 0x00000101) ∧ (t.ckCalc ≠ t.ckRecv → t.status = 0x00000002) ∧
    SameCounters s t ∧ SameHostSide s t

/-- Round trip (44 R135), as two steps of the machine: sealing a payload and opening the result at once ends `OK` with the
plain frame in the buffer and both checksums equal. The host's two actions come from `inbox`, log entry 1. -/
def Obligations.SealThenOpenRoundTrip : Prop :=
  ∀ (s : State) (p : List Byte) (rest : List HostAction), p.length ≤ 508 → (∀ a, a < p.length → s.byte a = p.getD a 0) →
    s.inbox = .issue (encode (.cmdseal (BitVec.ofNat 10 p.length))) :: .issue (encode .rspopen) :: rest →
    ∃ t, Sys2Proof.core.run 2 s = .next t ∧ t.status = 0x00000101 ∧ Holds t (plainFrame Config.hardware p) ∧
      t.ckCalc = t.ckRecv ∧ t.inbox = rest

/-- Corruption on the wire (44 R136): an error pattern on the sealed frame is the same pattern on the opened one; it is reported
exactly when the checksum of the changed payload differs from the changed stored value; one confined to the stored
checksum is always reported. -/
def Obligations.WireCorruptionReachesPlainForm : Prop :=
  ∀ (u : State) (p : List Byte) (e : Nat → Byte), p.length ≤ 508 →
    Holds u (fun a => sealedFrame Config.hardware p a ^^^ e a) →
    ∃ v, exec .rspopen u = .next v ∧ Holds v (fun a => plainFrame Config.hardware p a ^^^ e a) ∧
      (v.status = 0x00000002 ↔
        Config.hardware.cksumFn (fun i => wordOfBytes (fun a => plainFrame Config.hardware p a ^^^ e a) i.val)
          ≠ wordOfBytes (fun a => plainFrame Config.hardware p a ^^^ e a) 127) ∧
      ((∀ a, a < 508 → e a = 0) → (∃ a, 508 ≤ a ∧ a < 512 ∧ e a ≠ 0) → v.status = 0x00000002)

/-- A payload and the same payload with a zero byte more have the same frame: the frame does not record its length (44 R132). -/
def Obligations.FrameForgetsTrailingZeros : Prop :=
  ∀ (p : List Byte) (a : Nat), p.length < 508 → a < 512 →
    plainFrame Config.hardware (p ++ [0]) a = plainFrame Config.hardware p a ∧
    sealedFrame Config.hardware (p ++ [0]) a = sealedFrame Config.hardware p a

/-! ### Host sequences: procedures outside the step (log entry 19) over a channel oracle (log entry 18) -/

/-- HANDSHAKE with a channel that does not fail makes exactly four writes, the four frames in order, no read, and returns
Done (45 R141). -/
def Obligations.HandshakeWritesFourFrames : Prop :=
  ∀ (o : ChannelOracle) (t : Target) (s : State), (∀ k, k < 4 → o.writeFails k = false) →
    ∃ r, handshake o t s = .next r ∧ r.result = .done ∧ r.block.wseq = 4 ∧
      r.calls = [.write t (dumpOf (wakeFrame Config.hardware 0)), .write t (dumpOf (wakeFrame Config.hardware 1)),
        .write t (dumpOf (wakeFrame Config.hardware 2)), .write t (dumpOf (wakeFrame Config.hardware 3))]

/-- HANDSHAKE stops at the first write that fails: ChannelError, the frames up to that one written and no other, and the
builder one past that frame (45 R141, R143). -/
def Obligations.HandshakeStopsAtFirstError : Prop :=
  ∀ (o : ChannelOracle) (t : Target) (s : State) (k : Fin 4),
    o.writeFails k.val = true → (∀ j, j < k.val → o.writeFails j = false) →
    ∃ r, handshake o t s = .next r ∧ r.result = .channelError ∧ r.block.wseq.toNat = k.val + 1 ∧
      Holds r.block (wakeFrame Config.hardware k) ∧
      r.calls = ((List.finRange 4).take (k.val + 1)).map fun j => .write t (dumpOf (wakeFrame Config.hardware j))

/-- EXCHANGE rejects a payload above 508 bytes before any channel call (45 R142, R143). -/
def Obligations.ExchangeRejectsLongPayload : Prop :=
  ∀ (o : ChannelOracle) (t : Target) (s : State) (p : List Byte), 508 < p.length →
    exchange o t p s = .next ⟨.framingViolation, [], s⟩

/-- EXCHANGE whose write or read fails returns ChannelError at once, the sealed frame written once and still in the buffer
(45 R142, R143). -/
def Obligations.ExchangeReportsChannelError : Prop :=
  ∀ (o : ChannelOracle) (t : Target) (s : State) (p : List Byte), p.length ≤ 508 →
    (o.writeFails 0 = true → ∃ r, exchange o t p s = .next r ∧ r.result = .channelError ∧
      r.calls = [.write t (dumpOf (sealedFrame Config.hardware p))] ∧
      Holds r.block (sealedFrame Config.hardware p)) ∧
    (o.writeFails 0 = false → o.readAnswer 0 = none → ∃ r, exchange o t p s = .next r ∧ r.result = .channelError ∧
      r.calls = [.write t (dumpOf (sealedFrame Config.hardware p)), .read t] ∧
      Holds r.block (sealedFrame Config.hardware p))

/-- EXCHANGE whose channel calls succeed returns the descrambled payload of the sector read, with `Ok` or with both checksums,
whatever that sector is (45 R142, R143). -/
def Obligations.ExchangeReturnsPayloadAndIntegrity : Prop :=
  ∀ (o : ChannelOracle) (t : Target) (s : State) (p : List Byte) (q : Vector Byte 512), p.length ≤ 508 →
    o.writeFails 0 = false → o.readAnswer 0 = some q →
    let plain := scrambledFrame Config.hardware fun a => q.toList.getD a 0
    let computed := Config.hardware.cksumFn fun i => wordOfBytes plain i.val
    let received := wordOfBytes plain 127
    ∃ r, exchange o t p s = .next r ∧
      r.result = .answered ((List.range 508).map plain)
        (if computed = received then .ok else .checksumMismatch computed received) ∧
      r.calls = [.write t (dumpOf (sealedFrame Config.hardware p)), .read t] ∧ Holds r.block plain

/-- Both procedures name only the target the caller supplied; HANDSHAKE never reads, and EXCHANGE makes at most one write and then at
most one read (45 R144, R146 (a)). -/
def Obligations.HostSequencesUseOneTarget : Prop :=
  ∀ (o : ChannelOracle) (t : Target) (s : State) (p : List Byte),
    (∃ r, handshake o t s = .next r ∧ (∀ x ∈ r.calls, ∃ b, x = .write t b) ∧ r.calls.length ≤ 4) ∧
    ∃ r, exchange o t p s = .next r ∧ (∀ x ∈ r.calls, x.target = t) ∧
      (r.calls = [] ∨ ∃ b, r.calls = [.write t b] ∨ r.calls = [.write t b, .read t])
end

