-- ==== Sys2Proof/Laws/Bytes.lean ====
section
/-! SUPPORT. Little-endian packing and unpacking are inverse (00_scope R12), and XOR goes byte by byte. -/

namespace Sys2Proof.Machine

theorem byteOf_xor (w t : Word) (j : Nat) : byteOf (w ^^^ t) j = byteOf w j ^^^ byteOf t j := by
  apply BitVec.eq_of_getLsbD_eq
  intro i hi
  simp [byteOf, hi]

theorem byteOf_le32 (b0 b1 b2 b3 : Byte) :
    byteOf (le32 b0 b1 b2 b3) 0 = b0 ∧ byteOf (le32 b0 b1 b2 b3) 1 = b1 ∧
    byteOf (le32 b0 b1 b2 b3) 2 = b2 ∧ byteOf (le32 b0 b1 b2 b3) 3 = b3 := by
  refine ⟨?_, ?_, ?_, ?_⟩ <;>
  · apply BitVec.eq_of_getLsbD_eq
    intro i hi
    simp only [byteOf, le32, BitVec.getLsbD_extractLsb', BitVec.getLsbD_append, hi]
    interval_cases i <;> simp

theorem le32_byteOf (w : Word) : le32 (byteOf w 0) (byteOf w 1) (byteOf w 2) (byteOf w 3) = w := by
  apply BitVec.eq_of_getLsbD_eq
  intro i hi
  simp only [byteOf, le32, BitVec.getLsbD_extractLsb', BitVec.getLsbD_append]
  interval_cases i <;> simp

/-- The bytes of a word determine it. -/
theorem word_ext {w t : Word} (h : ∀ j < 4, byteOf w j = byteOf t j) : w = t := by
  rw [← le32_byteOf w, ← le32_byteOf t, h 0 (by decide), h 1 (by decide), h 2 (by decide), h 3 (by decide)]

end Sys2Proof.Machine
end

