-- ==== Sys2Proof/Laws/Memory.lean ====
section
/-! SUPPORT. The one memory operation, `Memory.fill`: what a read sees after it, and that it keeps the canonical form. -/

namespace Sys2Proof.Machine

theorem Memory.get?_append (m m' : Memory) (a : Nat) :
    Memory.get? (m ++ m') a = (Memory.get? m a).or (Memory.get? m' a) := by
  induction m with
  | nil => simp [Memory.get?]
  | cons x m ih =>
    by_cases h : x.1 = a
    · simp [Memory.get?, h]
    · simp [Memory.get?, h, ih]

theorem Memory.get?_filter (m : Memory) (p : Nat → Bool) (a : Nat) :
    Memory.get? (m.filter fun x => p x.1) a = if p a then Memory.get? m a else none := by
  induction m with
  | nil => simp [Memory.get?]
  | cons x m ih =>
    by_cases hx : p x.1 <;> by_cases h : x.1 = a
    · subst h; simp [Memory.get?, hx]
    · simp [Memory.get?, hx, h, ih]
    · subst h; simp [hx, ih]
    · simp [Memory.get?, hx, h, ih]

theorem Memory.get?_range (f : Nat → Byte) (n lo a : Nat) :
    Memory.get? ((List.range' lo n).map fun b => (b, f b)) a = if lo ≤ a ∧ a < lo + n then some (f a) else none := by
  induction n generalizing lo with
  | zero => simp [Memory.get?]
  | succ n ih =>
    by_cases h : lo = a
    · subst h; simp [List.range'_succ, Memory.get?]
    · simp only [List.range'_succ, List.map_cons, Memory.get?, h, if_false, ih]
      congr 1
      simp only [eq_iff_iff]
      omega

/-- A read after a fill: inside the region the value written, outside what was there. -/
theorem Memory.get?_fill (m : Memory) (lo n : Nat) (f : Nat → Byte) (a : Nat) :
    Memory.get? (m.fill lo n f) a = if lo ≤ a ∧ a < lo + n then some (f a) else Memory.get? m a := by
  have below := Memory.get?_filter m (fun b => decide (b < lo)) a
  have above := Memory.get?_filter m (fun b => decide (lo + n ≤ b)) a
  simp only [Memory.fill, Memory.get?_append, below, above, Memory.get?_range, decide_eq_true_eq]
  by_cases h1 : a < lo
  · have h2 : ¬ (lo ≤ a ∧ a < lo + n) := by omega
    have h3 : ¬ lo + n ≤ a := by omega
    simp [h1, h2, h3]
  · by_cases h3 : lo + n ≤ a
    · have h2 : ¬ (lo ≤ a ∧ a < lo + n) := by omega
      simp [h1, h2, h3]
    · have h2 : lo ≤ a ∧ a < lo + n := by omega
      simp [h1, h2]

theorem Memory.wf_nil : Memory.wf [] := by simp [Memory.wf]

/-- A fill inside the 512 offsets keeps the canonical form. -/
theorem Memory.wf_fill {m : Memory} (h : m.wf) {lo n : Nat} (hn : lo + n ≤ 512) (f : Nat → Byte) :
    (m.fill lo n f).wf := by
  obtain ⟨hp, hb⟩ := h
  constructor
  · simp only [Memory.fill, List.append_assoc]
    refine List.pairwise_append.2 ⟨hp.filter _, List.pairwise_append.2 ⟨?_, hp.filter _, ?_⟩, ?_⟩
    · exact List.pairwise_map.2 (List.pairwise_lt_range' (s := lo) (n := n))
    · intro x hx y hy
      simp only [List.mem_map, List.mem_range'_1, List.mem_filter, decide_eq_true_eq] at hx hy
      obtain ⟨b, hb', rfl⟩ := hx
      show b < y.1
      omega
    · intro x hx y hy
      simp only [List.mem_append, List.mem_map, List.mem_range'_1, List.mem_filter, decide_eq_true_eq] at hx hy
      obtain ⟨b, hb', rfl⟩ | hy := hy
      · show x.1 < b
        omega
      · omega
  · intro x hx
    simp only [Memory.fill, List.mem_append, List.mem_filter, List.mem_map, List.mem_range'_1] at hx
    obtain (⟨hx, -⟩ | ⟨b, hb', rfl⟩) | ⟨hx, -⟩ := hx
    · exact hb x hx
    · show b < 512
      omega
    · exact hb x hx

end Sys2Proof.Machine
end

