-- ==== Sys2Proof/Laws/State.lean ====
section
/-! SUPPORT. One lemma per field per update of the state, each true by rfl. -/

namespace Sys2Proof.Machine

section fields
variable (s : State) (lo n i a : Nat) (f : Nat → Byte) (v : Byte) (w : Word) (r : Result) (g : Flags) (p : Reply)

@[simp] theorem State.fill_sb : (s.fill lo n f).sb = s.sb.fill lo n f := rfl
@[simp] theorem State.fill_ckCalc : (s.fill lo n f).ckCalc = s.ckCalc := rfl
@[simp] theorem State.fill_ckRecv : (s.fill lo n f).ckRecv = s.ckRecv := rfl
@[simp] theorem State.fill_status : (s.fill lo n f).status = s.status := rfl
@[simp] theorem State.fill_wseq : (s.fill lo n f).wseq = s.wseq := rfl
@[simp] theorem State.fill_vseq : (s.fill lo n f).vseq = s.vseq := rfl
@[simp] theorem State.fill_draw : (s.fill lo n f).draw = s.draw := rfl
@[simp] theorem State.fill_inbox : (s.fill lo n f).inbox = s.inbox := rfl
@[simp] theorem State.fill_replies : (s.fill lo n f).replies = s.replies := rfl

@[simp] theorem State.setByte_sb : (s.setByte a v).sb = s.sb.fill a 1 fun _ => v := rfl
@[simp] theorem State.setByte_ckCalc : (s.setByte a v).ckCalc = s.ckCalc := rfl
@[simp] theorem State.setByte_ckRecv : (s.setByte a v).ckRecv = s.ckRecv := rfl
@[simp] theorem State.setByte_status : (s.setByte a v).status = s.status := rfl
@[simp] theorem State.setByte_wseq : (s.setByte a v).wseq = s.wseq := rfl
@[simp] theorem State.setByte_vseq : (s.setByte a v).vseq = s.vseq := rfl
@[simp] theorem State.setByte_draw : (s.setByte a v).draw = s.draw := rfl
@[simp] theorem State.setByte_inbox : (s.setByte a v).inbox = s.inbox := rfl
@[simp] theorem State.setByte_replies : (s.setByte a v).replies = s.replies := rfl

@[simp] theorem State.setWord_sb : (s.setWord i w).sb = s.sb.fill (4 * i) 4 fun a => byteOf w (a - 4 * i) := rfl
@[simp] theorem State.setWord_ckCalc : (s.setWord i w).ckCalc = s.ckCalc := rfl
@[simp] theorem State.setWord_ckRecv : (s.setWord i w).ckRecv = s.ckRecv := rfl
@[simp] theorem State.setWord_status : (s.setWord i w).status = s.status := rfl
@[simp] theorem State.setWord_wseq : (s.setWord i w).wseq = s.wseq := rfl
@[simp] theorem State.setWord_vseq : (s.setWord i w).vseq = s.vseq := rfl
@[simp] theorem State.setWord_draw : (s.setWord i w).draw = s.draw := rfl
@[simp] theorem State.setWord_inbox : (s.setWord i w).inbox = s.inbox := rfl
@[simp] theorem State.setWord_replies : (s.setWord i w).replies = s.replies := rfl

@[simp] theorem State.finish_sb : (s.finish r g).sb = s.sb := rfl
@[simp] theorem State.finish_ckCalc : (s.finish r g).ckCalc = s.ckCalc := rfl
@[simp] theorem State.finish_ckRecv : (s.finish r g).ckRecv = s.ckRecv := rfl
@[simp] theorem State.finish_status : (s.finish r g).status = pack r g := rfl
@[simp] theorem State.finish_wseq : (s.finish r g).wseq = s.wseq := rfl
@[simp] theorem State.finish_vseq : (s.finish r g).vseq = s.vseq := rfl
@[simp] theorem State.finish_draw : (s.finish r g).draw = s.draw := rfl
@[simp] theorem State.finish_inbox : (s.finish r g).inbox = s.inbox := rfl
@[simp] theorem State.finish_replies : (s.finish r g).replies = s.replies := rfl

@[simp] theorem State.answer_sb : (s.answer p).sb = s.sb := rfl
@[simp] theorem State.answer_ckCalc : (s.answer p).ckCalc = s.ckCalc := rfl
@[simp] theorem State.answer_ckRecv : (s.answer p).ckRecv = s.ckRecv := rfl
@[simp] theorem State.answer_status : (s.answer p).status = s.status := rfl
@[simp] theorem State.answer_wseq : (s.answer p).wseq = s.wseq := rfl
@[simp] theorem State.answer_vseq : (s.answer p).vseq = s.vseq := rfl
@[simp] theorem State.answer_draw : (s.answer p).draw = s.draw := rfl
@[simp] theorem State.answer_inbox : (s.answer p).inbox = s.inbox := rfl
@[simp] theorem State.answer_replies : (s.answer p).replies = p :: s.replies := rfl

@[simp] theorem resetBlock_sb : (resetBlock s).sb = [] := rfl
@[simp] theorem resetBlock_ckCalc : (resetBlock s).ckCalc = 0 := rfl
@[simp] theorem resetBlock_ckRecv : (resetBlock s).ckRecv = 0 := rfl
@[simp] theorem resetBlock_status : (resetBlock s).status = 0 := rfl
@[simp] theorem resetBlock_wseq : (resetBlock s).wseq = 0 := rfl
@[simp] theorem resetBlock_vseq : (resetBlock s).vseq = 0 := rfl
@[simp] theorem resetBlock_draw : (resetBlock s).draw = s.draw + 1 := rfl
@[simp] theorem resetBlock_inbox : (resetBlock s).inbox = s.inbox := rfl
@[simp] theorem resetBlock_replies : (resetBlock s).replies = s.replies := rfl
end fields

end Sys2Proof.Machine
end

