-- ==== Sys2Proof/Laws/Fields.lean ====
section
/-! SUPPORT. The fields after each shared operation, one lemma a field, and that each keeps the canonical form of the buffer. -/

namespace Sys2Proof.Machine

section fields
variable (c : Config) (k : Fin 4) (s : State)

@[simp] theorem scramble_ckCalc : (scramble c s).ckCalc = s.ckCalc := rfl
@[simp] theorem scramble_ckRecv : (scramble c s).ckRecv = s.ckRecv := rfl
@[simp] theorem scramble_status : (scramble c s).status = s.status := rfl
@[simp] theorem scramble_wseq : (scramble c s).wseq = s.wseq := rfl
@[simp] theorem scramble_vseq : (scramble c s).vseq = s.vseq := rfl
@[simp] theorem scramble_draw : (scramble c s).draw = s.draw := rfl
@[simp] theorem scramble_inbox : (scramble c s).inbox = s.inbox := rfl
@[simp] theorem scramble_replies : (scramble c s).replies = s.replies := rfl

@[simp] theorem embed_ckCalc : (embed c s).ckCalc = checksum c s := rfl
@[simp] theorem embed_ckRecv : (embed c s).ckRecv = s.ckRecv := rfl
@[simp] theorem embed_status : (embed c s).status = s.status := rfl
@[simp] theorem embed_wseq : (embed c s).wseq = s.wseq := rfl
@[simp] theorem embed_vseq : (embed c s).vseq = s.vseq := rfl
@[simp] theorem embed_draw : (embed c s).draw = s.draw := rfl
@[simp] theorem embed_inbox : (embed c s).inbox = s.inbox := rfl
@[simp] theorem embed_replies : (embed c s).replies = s.replies := rfl

@[simp] theorem latchChecksums_ckCalc : (latchChecksums c s).ckCalc = checksum c s := rfl
@[simp] theorem latchChecksums_ckRecv : (latchChecksums c s).ckRecv = s.word 127 := rfl
@[simp] theorem latchChecksums_status : (latchChecksums c s).status = s.status := rfl
@[simp] theorem latchChecksums_wseq : (latchChecksums c s).wseq = s.wseq := rfl
@[simp] theorem latchChecksums_vseq : (latchChecksums c s).vseq = s.vseq := rfl
@[simp] theorem latchChecksums_draw : (latchChecksums c s).draw = s.draw := rfl
@[simp] theorem latchChecksums_inbox : (latchChecksums c s).inbox = s.inbox := rfl
@[simp] theorem latchChecksums_replies : (latchChecksums c s).replies = s.replies := rfl

@[simp] theorem template_ckCalc : (template c s).ckCalc = s.ckCalc := rfl
@[simp] theorem template_ckRecv : (template c s).ckRecv = s.ckRecv := rfl
@[simp] theorem template_status : (template c s).status = s.status := rfl
@[simp] theorem template_wseq : (template c s).wseq = s.wseq := rfl
@[simp] theorem template_vseq : (template c s).vseq = s.vseq := rfl
@[simp] theorem template_draw : (template c s).draw = s.draw := rfl
@[simp] theorem template_inbox : (template c s).inbox = s.inbox := rfl
@[simp] theorem template_replies : (template c s).replies = s.replies := rfl

@[simp] theorem writeId_ckCalc : (writeId c k s).ckCalc = s.ckCalc := rfl
@[simp] theorem writeId_ckRecv : (writeId c k s).ckRecv = s.ckRecv := rfl
@[simp] theorem writeId_status : (writeId c k s).status = s.status := rfl
@[simp] theorem writeId_wseq : (writeId c k s).wseq = s.wseq := rfl
@[simp] theorem writeId_vseq : (writeId c k s).vseq = s.vseq := rfl
@[simp] theorem writeId_draw : (writeId c k s).draw = s.draw := rfl
@[simp] theorem writeId_inbox : (writeId c k s).inbox = s.inbox := rfl
@[simp] theorem writeId_replies : (writeId c k s).replies = s.replies := rfl

@[simp] theorem identify_ckCalc : (identify c k s).ckCalc = checksum c (writeId c k s) := rfl
@[simp] theorem identify_ckRecv : (identify c k s).ckRecv = s.ckRecv := rfl
@[simp] theorem identify_status : (identify c k s).status = s.status := rfl
@[simp] theorem identify_wseq : (identify c k s).wseq = s.wseq := rfl
@[simp] theorem identify_vseq : (identify c k s).vseq = s.vseq := rfl
@[simp] theorem identify_draw : (identify c k s).draw = s.draw := rfl
@[simp] theorem identify_inbox : (identify c k s).inbox = s.inbox := rfl
@[simp] theorem identify_replies : (identify c k s).replies = s.replies := rfl

@[simp] theorem verify_ckCalc : (verify c s).ckCalc = checksum c s := rfl
@[simp] theorem verify_ckRecv : (verify c s).ckRecv = s.word 127 := rfl
@[simp] theorem verify_status : (verify c s).status = pack (if checksumOk c s then .ok else .checksumMismatch) { ckok := checksumOk c s } := rfl
@[simp] theorem verify_wseq : (verify c s).wseq = s.wseq := rfl
@[simp] theorem verify_vseq : (verify c s).vseq = s.vseq := rfl
@[simp] theorem verify_draw : (verify c s).draw = s.draw := rfl
@[simp] theorem verify_inbox : (verify c s).inbox = s.inbox := rfl
@[simp] theorem verify_replies : (verify c s).replies = s.replies := rfl

@[simp] theorem illegalCommand_sb : (illegalCommand s).sb = s.sb := rfl
@[simp] theorem illegalCommand_ckCalc : (illegalCommand s).ckCalc = s.ckCalc := rfl
@[simp] theorem illegalCommand_ckRecv : (illegalCommand s).ckRecv = s.ckRecv := rfl
@[simp] theorem illegalCommand_status : (illegalCommand s).status = 4 := rfl
@[simp] theorem illegalCommand_wseq : (illegalCommand s).wseq = s.wseq := rfl
@[simp] theorem illegalCommand_vseq : (illegalCommand s).vseq = s.vseq := rfl
@[simp] theorem illegalCommand_draw : (illegalCommand s).draw = s.draw := rfl
@[simp] theorem illegalCommand_inbox : (illegalCommand s).inbox = s.inbox := rfl
@[simp] theorem illegalCommand_replies : (illegalCommand s).replies = s.replies := rfl

@[simp] theorem latchChecksums_sb : (latchChecksums c s).sb = s.sb := rfl
@[simp] theorem verify_sb : (verify c s).sb = s.sb := rfl
@[simp] theorem latchChecksums_byte : (latchChecksums c s).byte = s.byte := rfl
@[simp] theorem verify_byte : (verify c s).byte = s.byte := rfl
@[simp] theorem verify_word : (verify c s).word = s.word := rfl
@[simp] theorem illegalCommand_byte : (illegalCommand s).byte = s.byte := rfl
end fields

section canonical
variable {s : State} (h : s.sb.wf)
include h

theorem State.fill_wf {lo n : Nat} (hn : lo + n ≤ 512) (f : Nat → Byte) : (s.fill lo n f).sb.wf :=
  Memory.wf_fill h hn f

theorem State.setByte_wf {a : Nat} (ha : a < 512) (v : Byte) : (s.setByte a v).sb.wf :=
  Memory.wf_fill h (by omega) _

theorem State.setWord_wf {i : Nat} (hi : i < 128) (w : Word) : (s.setWord i w).sb.wf :=
  Memory.wf_fill h (by omega) _

theorem scramble_wf (c : Config) : (scramble c s).sb.wf := State.fill_wf h (by omega) _

theorem embed_wf (c : Config) : (embed c s).sb.wf := State.setWord_wf h (by omega) (checksum c s)

theorem template_wf (c : Config) : (template c s).sb.wf :=
  State.fill_wf (State.fill_wf (State.fill_wf (State.fill_wf h (by omega) _) (by omega) _) (by omega) _) (by omega) _

theorem writeId_wf (c : Config) (k : Fin 4) : (writeId c k s).sb.wf := State.fill_wf h (by omega) _

theorem identify_wf (c : Config) (k : Fin 4) : (identify c k s).sb.wf := embed_wf (writeId_wf h c k) c
end canonical

end Sys2Proof.Machine
end

