-- ==== Sys2Proof/Laws/Flags.lean ====
section
/-! SUPPORT. The fields of `STATUS` after a packing (10_state R25, R26) and of the `SEQ` view (R30). -/

namespace Sys2Proof.Machine

/-- Every field of a packed `STATUS` (R25, R26). -/
theorem pack_fields (r : Result) (f : Flags) :
    ((pack r f).extractLsb' 0 4).toNat = r.code ∧ (pack r f).extractLsb' 4 4 = 0 ∧
    (pack r f).getLsbD 8 = f.ckok ∧ (pack r f).getLsbD 9 = f.magic ∧ (pack r f).getLsbD 10 = f.idhit ∧
    (pack r f).getLsbD 11 = f.gap ∧ (pack r f).getLsbD 12 = f.fill ∧ (pack r f).getLsbD 13 = f.trail ∧
    ((pack r f).extractLsb' 14 2).toNat = f.idx.val ∧ (pack r f).extractLsb' 16 16 = 0 := by
  obtain ⟨ckok, magic, idhit, gap, fill, trail, idx⟩ := f
  revert ckok magic idhit gap fill trail idx
  cases r <;> decide +kernel

/-- A result code is at most 6 (R27). -/
theorem Result.code_le (r : Result) : r.code ≤ 6 := by cases r <;> decide

theorem State.seq_getLsbD (s : State) (i : Nat) :
    s.seq.getLsbD i =
      if i < 3 then s.wseq.getLsbD i else if i < 4 then false else if i < 7 then s.vseq.getLsbD (i - 4)
      else if i < 8 then s.awake else false := by
  have h : s.seq = ((((0 : BitVec 24) ++ BitVec.ofBool s.awake) ++ s.vseq) ++ (0 : BitVec 1)) ++ s.wseq := rfl
  rw [h]
  simp only [BitVec.getLsbD_append]
  by_cases h3 : i < 3
  · simp [h3]
  · by_cases h4 : i < 4
    · have : i = 3 := by omega
      subst this; simp
    · by_cases h7 : i < 7
      · have : i - 3 - 1 = i - 4 := by omega
        simp [h3, h4, h7, this, show ¬ i - 3 < 1 by omega, show i - 4 < 3 by omega]
      · by_cases h8 : i < 8
        · have : i = 7 := by omega
          subst this; simp
        · simp [h3, h4, h7, h8, show ¬ i - 3 < 1 by omega, show ¬ i - 3 - 1 < 3 by omega,
            show ¬ i - 3 - 1 - 3 < 1 by omega]

end Sys2Proof.Machine
end

