-- ==== Sys2Proof/Laws/Ops.lean ====
section
/-! SUPPORT. What each shared operation does, said once: the bytes and words of the buffer after it, and the fields it leaves. -/

namespace Sys2Proof.Machine

/-! ### Bytes and words -/

theorem byteOf_wordOfBytes (f : Nat → Byte) (i : Nat) {j : Nat} (hj : j < 4) :
    byteOf (wordOfBytes f i) j = f (4 * i + j) := by
  obtain ⟨h0, h1, h2, h3⟩ := byteOf_le32 (f (4 * i)) (f (4 * i + 1)) (f (4 * i + 2)) (f (4 * i + 3))
  interval_cases j
  · exact h0
  · exact h1
  · exact h2
  · exact h3

/-- A word of the buffer determines its bytes and is determined by them. -/
theorem wordOfBytes_congr {f g : Nat → Byte} {i : Nat} (h : ∀ j < 4, f (4 * i + j) = g (4 * i + j)) :
    wordOfBytes f i = wordOfBytes g i := by
  refine word_ext fun j hj => ?_
  rw [byteOf_wordOfBytes f i hj, byteOf_wordOfBytes g i hj, h j hj]

theorem State.byte_fill (s : State) (lo n : Nat) (f : Nat → Byte) (a : Nat) :
    (s.fill lo n f).byte a = if lo ≤ a ∧ a < lo + n then f a else s.byte a := by
  simp only [State.byte, State.fill_sb, State.fill_draw, Memory.get?_fill]
  split <;> rfl

theorem State.byte_setByte (s : State) (a : Nat) (v : Byte) (b : Nat) :
    (s.setByte a v).byte b = if b = a then v else s.byte b := by
  rw [State.setByte, State.byte_fill]
  congr 1
  simp only [eq_iff_iff]
  omega

theorem State.byte_setWord (s : State) (i : Nat) (w : Word) (a : Nat) :
    (s.setWord i w).byte a = if 4 * i ≤ a ∧ a < 4 * i + 4 then byteOf w (a - 4 * i) else s.byte a :=
  State.byte_fill ..

theorem State.word_setWord_same (s : State) (i : Nat) (w : Word) : (s.setWord i w).word i = w := by
  refine word_ext fun j hj => ?_
  rw [State.word, byteOf_wordOfBytes _ _ hj, State.byte_setWord, if_pos (by omega), Nat.add_sub_cancel_left]

theorem State.word_setWord_of_ne (s : State) {i i' : Nat} (h : i' ≠ i) (w : Word) :
    (s.setWord i w).word i' = s.word i' := by
  refine wordOfBytes_congr fun j hj => ?_
  rw [State.byte_setWord, if_neg (by omega)]

/-- Two states with the same payload bytes have the same payload words. -/
theorem payload_congr {s t : State} (h : ∀ a < 508, s.byte a = t.byte a) : s.payload = t.payload := by
  funext i
  exact wordOfBytes_congr fun j hj => h _ (by omega)

/-- The checksum depends on bytes 0..507 alone (41 R100). -/
theorem checksum_congr (c : Config) {s t : State} (h : ∀ a < 508, s.byte a = t.byte a) :
    checksum c s = checksum c t := by
  rw [checksum, checksum, payload_congr h]

/-- A state whose payload bytes are `f` has the payload words of `f`. -/
theorem payload_of_bytes {s : State} {f : Nat → Byte} (h : ∀ a < 508, s.byte a = f a) :
    s.payload = fun i => wordOfBytes f i.val := by
  funext i
  exact wordOfBytes_congr fun j hj => h _ (by omega)

/-! ### Updates that leave the buffer alone -/

@[simp] theorem State.byte_finish (s : State) (r : Result) (g : Flags) : (s.finish r g).byte = s.byte := rfl
@[simp] theorem State.word_finish (s : State) (r : Result) (g : Flags) : (s.finish r g).word = s.word := rfl
@[simp] theorem State.byte_answer (s : State) (p : Reply) : (s.answer p).byte = s.byte := rfl
@[simp] theorem checksum_finish (c : Config) (s : State) (r : Result) (g : Flags) :
    checksum c (s.finish r g) = checksum c s := rfl

/-- Everything an illegal command word does (30 R75). -/
theorem illegalCommand_spec (s : State) : illegalCommand s = { s with status := 4 } := rfl

/-! ### Scramble -/

/-- Byte `a` of the buffer after a scramble (40 R91, in bytes). -/
theorem byte_scramble (c : Config) (s : State) {a : Nat} (ha : a < 512) :
    (scramble c s).byte a = s.byte a ^^^ byteOf (c.xorTable (Fin.ofNat 128 (a / 4))) (a % 4) := by
  rw [scramble, State.byte_fill, if_pos (by omega), byteOf_xor, State.word, byteOf_wordOfBytes _ _ (by omega)]
  congr 2
  omega

/-- Word `i` of the buffer after a scramble (40 R91). -/
theorem word_scramble (c : Config) (s : State) (i : Fin 128) :
    (scramble c s).word i = s.word i ^^^ c.xorTable i := by
  refine word_ext fun j hj => ?_
  have hi : Fin.ofNat 128 ((4 * i.val + j) / 4) = i := by
    apply Fin.ext
    simp only [Fin.val_ofNat]
    omega
  have hj' : (4 * i.val + j) % 4 = j := by omega
  rw [State.word, byteOf_wordOfBytes _ _ hj, byte_scramble c s (by omega), hi, hj', byteOf_xor, State.word,
    byteOf_wordOfBytes _ _ hj]

/-! ### Checksum -/

/-- The bytes after an embed (41 R103): the checksum at 508..511, the rest as before. -/
theorem byte_embed (c : Config) (s : State) (a : Nat) :
    (embed c s).byte a = if 508 ≤ a ∧ a < 512 then byteOf (checksum c s) (a - 508) else s.byte a :=
  State.byte_setWord s 127 (checksum c s) a

/-- An embed does not change the checksum (41 R105). -/
@[simp] theorem checksum_embed (c : Config) (s : State) : checksum c (embed c s) = checksum c s :=
  checksum_congr c fun a ha => by rw [byte_embed, if_neg (by omega)]

@[simp] theorem word_embed (c : Config) (s : State) : (embed c s).word 127 = checksum c s :=
  State.word_setWord_same s 127 (checksum c s)

/-- Everything a latch of the two checksums does. -/
theorem latchChecksums_spec (c : Config) (s : State) :
    latchChecksums c s = { s with ckCalc := checksum c s, ckRecv := s.word 127 } := rfl

/-- Everything a verification does (41 R104). -/
theorem verify_spec (c : Config) (s : State) :
    verify c s = { s with
      ckCalc := checksum c s, ckRecv := s.word 127,
      status := if checksum c s = s.word 127 then 0x101 else 0x002 } := by
  by_cases h : checksum c s = s.word 127
  · simp only [verify, checksumOk, h, decide_true, if_true]
    simp only [latchChecksums, State.finish, h]
    rfl
  · simp only [verify, checksumOk, h, decide_false, if_false]
    rfl

/-! ### Wake-up frames -/

theorem filler_eq (i : Nat) : filler i = BitVec.ofNat 8 i := by
  apply BitVec.eq_of_toNat_eq
  have h : i &&& 0xFF = i % 256 := Nat.and_two_pow_sub_one_eq_mod i 8
  simp [filler, h]

/-- The 512 bytes of the template (42 R110). -/
theorem byte_template (c : Config) (s : State) {a : Nat} (ha : a < 512) :
    (template c s).byte a =
      if a < 4 then c.wakeMagic (Fin.ofNat 4 a)
      else if a < 0x10 then 0
      else if a < 0x1F8 then filler a
      else c.wakeTrailer (Fin.ofNat 8 (a - 0x1F8)) := by
  simp only [template, State.byte_fill]
  by_cases h1 : a < 4
  · rw [if_neg (by omega), if_neg (by omega), if_pos (by omega), if_pos h1]
  · by_cases h2 : a < 0x10
    · rw [if_neg (by omega), if_neg (by omega), if_neg (by omega), if_pos (by omega), if_neg h1, if_pos h2]
    · by_cases h3 : a < 0x1F8
      · rw [if_pos (by omega), if_neg h1, if_neg h2, if_pos h3]
      · rw [if_neg (by omega), if_pos (by omega), if_neg h1, if_neg h2, if_neg h3]

/-- The bytes after the identifier write (42 R111). -/
theorem byte_writeId (c : Config) (k : Fin 4) (s : State) (a : Nat) :
    (writeId c k s).byte a = if 4 ≤ a ∧ a < 8 then c.wakeId k (Fin.ofNat 4 (a - 4)) else s.byte a :=
  State.byte_fill ..

/-- The bytes after the writes of `WKID k` (42 R111). -/
theorem byte_identify (c : Config) (k : Fin 4) (s : State) (a : Nat) :
    (identify c k s).byte a =
      if 508 ≤ a ∧ a < 512 then byteOf (checksum c (writeId c k s)) (a - 508)
      else if 4 ≤ a ∧ a < 8 then c.wakeId k (Fin.ofNat 4 (a - 4)) else s.byte a := by
  rw [identify, byte_embed, byte_writeId]

/-- What a matcher says (43 R121). -/
theorem regionIs_iff (s : State) (lo n : Nat) (f : Nat → Byte) :
    regionIs s lo n f = true ↔ ∀ a, lo ≤ a → a < lo + n → s.byte a = f a := by
  simp only [regionIs, List.all_eq_true, List.mem_range'_1, decide_eq_true_eq, and_imp]

/-- If the identifier matcher finds a frame index, the identifier is that frame's (43 R120). -/
theorem matchedId?_some {c : Config} {s : State} {k : Fin 4} (h : matchedId? c s = some k) : idMatches c s k = true := by
  simp only [matchedId?] at h
  split at h
  · cases h; assumption
  · split at h
    · cases h; assumption
    · split at h
      · cases h; assumption
      · split at h
        · cases h; assumption
        · cases h

/-- If an identifier matches, the matcher finds some frame index (43 R120). -/
theorem matchedId?_isSome {c : Config} {s : State} {k : Fin 4} (h : idMatches c s k = true) :
    (matchedId? c s).isSome = true := by
  simp only [matchedId?]
  split
  · rfl
  · split
    · rfl
    · split
      · rfl
      · split
        · rfl
        · fin_cases k <;> simp_all

end Sys2Proof.Machine
end

