-- ==== Sys2Proof/Laws/Parametric.lean ====
section
/-! SUPPORT. The block's own configuration passes the check, and `exec` and `step` are the parametric machine at it. -/

namespace Sys2Proof

/-- R10 holds of the block's own configuration, whatever its identifiers are. -/
theorem Config.hardware_wellFormed : Config.hardware.wellFormed = true :=
  decide_eq_true (@Config.openWakeIds ⟨Config.someWakeIds⟩).distinct

namespace Machine

/-- Everything `exec` can do: go on to the state the operation gives (60 R156). -/
theorem exec_eq_operate (i : Instr) (s : State) : exec i s = .next (operate Config.hardware i s) := by
  cases i <;> rfl

theorem issue_eq_issueWith (cw : Word) (s : State) : issue cw s = .next (issueWith Config.hardware cw s) := by
  cases h : decode cw with
  | ok i =>
    simp only [issue, issueWith, h]
    exact exec_eq_operate i s
  | error e => simp only [issue, issueWith, h]

theorem perform_eq_performWith (a : HostAction) (s : State) :
    perform a s = .next (performWith Config.hardware a s) := by
  cases a with
  | issue cw => exact issue_eq_issueWith cw s
  | bufWrite8 _ _ => rfl
  | bufRead8 _ => rfl
  | bufWrite32 _ _ => rfl
  | bufRead32 _ => rfl
  | regRead _ => rfl
  | reset => rfl

/-- `step` is the parametric step at the block's own configuration (10_state R32). -/
theorem step_eq_stepWith (s : State) : step s = stepWith Config.hardware s := by
  cases h : s.inbox with
  | nil => simp only [step, stepWith, Config.hardware_wellFormed, if_true, h, idle]
  | cons a actions =>
    simp only [step, stepWith, Config.hardware_wellFormed, if_true, h]
    exact perform_eq_performWith ..

end Machine
end Sys2Proof
end

