-- ==== Sys2Proof/Laws/Frames.lean ====
section
/-! SUPPORT. What the builders, the sealer and the validator's matchers do, said once each: the frame a build or an embed
leaves (42 R112, 44 R132), and what each of the seven flags says (43 R120, R121). -/

namespace Sys2Proof.Machine

theorem ofNat4_eq {a : Nat} {j : Fin 4} (h : a = j.val) : Fin.ofNat 4 a = j := by
  apply Fin.ext
  simp only [Fin.val_ofNat]
  omega

theorem ofNat8_eq {a : Nat} {j : Fin 8} (h : a = j.val) : Fin.ofNat 8 a = j := by
  apply Fin.ext
  simp only [Fin.val_ofNat]
  omega

/-! ### Wake-up frames -/

theorem wakeFrame_body {c : Config} {k : Fin 4} {a : Nat} (h : a < 508) : wakeFrame c k a = wakeFrameBody c k a := if_pos h

/-- The template agrees with every frame outside the identifier and the checksum (42 R110, R112). -/
theorem byte_template_frame (c : Config) (s : State) (k : Fin 4) {a : Nat} (h : a < 508) (hn : ¬(4 ≤ a ∧ a < 8)) :
    (template c s).byte a = wakeFrameBody c k a := by
  rw [byte_template c s (by omega), wakeFrameBody]
  split
  · rfl
  · rw [if_neg (by omega : ¬ a < 8)]

/-- Two frames agree outside the identifier and the checksum (42 R112). -/
theorem wakeFrameBody_other (c : Config) (k k' : Fin 4) {a : Nat} (hn : ¬(4 ≤ a ∧ a < 8)) :
    wakeFrameBody c k a = wakeFrameBody c k' a := by
  rw [wakeFrameBody, wakeFrameBody]
  by_cases h4 : a < 4
  · rw [if_pos h4, if_pos h4]
  · rw [if_neg h4, if_neg h4, if_neg (by omega : ¬ a < 8), if_neg (by omega : ¬ a < 8)]

/-- The writes of `WKID k` on a buffer that is a frame outside the identifier and the checksum: the frame `k`, and its
checksum (42 R111, R112). -/
theorem identify_frame {c : Config} {s : State} {k : Fin 4}
    (h : ∀ a, a < 508 → ¬(4 ≤ a ∧ a < 8) → s.byte a = wakeFrameBody c k a) :
    checksum c (writeId c k s) = wakeChecksum c k ∧ ∀ a, a < 512 → (identify c k s).byte a = wakeFrame c k a := by
  have hb : ∀ a < 508, (writeId c k s).byte a = wakeFrameBody c k a := by
    intro a ha
    rw [byte_writeId]
    split
    · rw [wakeFrameBody, if_neg (by omega), if_pos (by omega)]
    · exact h a ha (by assumption)
  have hc : checksum c (writeId c k s) = wakeChecksum c k := by
    rw [checksum, payload_of_bytes hb]
    rfl
  refine ⟨hc, fun a ha => ?_⟩
  rw [identify, byte_embed, hc, wakeFrame]
  by_cases h5 : a < 508
  · rw [if_neg (by omega), if_pos h5, hb a h5]
  · rw [if_pos (by omega), if_neg h5]

/-- The computed and the stored checksum of a frame (42 R112, R113 (c)). -/
theorem checksums_of_frame {c : Config} {s : State} {k : Fin 4} (h : ∀ a, a < 512 → s.byte a = wakeFrame c k a) :
    checksum c s = wakeChecksum c k ∧ s.word 127 = wakeChecksum c k := by
  constructor
  · have hp : ∀ a < 508, s.byte a = wakeFrameBody c k a := fun a ha => by rw [h a (by omega), wakeFrame_body ha]
    rw [checksum, payload_of_bytes hp]
    rfl
  · refine word_ext fun j hj => ?_
    rw [State.word, byteOf_wordOfBytes _ _ hj, h _ (by omega), wakeFrame, if_neg (by omega),
      show 4 * 127 + j - 508 = j by omega]

/-! ### The matchers -/

/-- The identifier matcher (43 R120). -/
theorem idMatches_iff (c : Config) (s : State) (k : Fin 4) :
    idMatches c s k = true ↔ ∀ j : Fin 4, s.byte (4 + j.val) = c.wakeId k j := by
  rw [idMatches, regionIs_iff]
  constructor
  · intro h j
    rw [h _ (by omega) (by omega), ofNat4_eq (j := j) (by omega)]
  · intro h a h1 h2
    have := h ⟨a - 4, by omega⟩
    simp only [show 4 + (a - 4) = a by omega] at this
    rw [this, ofNat4_eq (j := ⟨a - 4, by omega⟩) rfl]

/-- Under a well-formed configuration the matched index is the one whose identifier the buffer holds (43 R121). -/
theorem matchedId?_eq {c : Config} (hc : c.wellFormed = true) {s : State} {k : Fin 4} (h : idMatches c s k = true) :
    matchedId? c s = some k := by
  obtain ⟨k', hk⟩ := Option.isSome_iff_exists.1 (matchedId?_isSome h)
  by_contra hne
  have hkk : k ≠ k' := by
    rintro rfl
    exact hne hk
  obtain ⟨j, hj⟩ := of_decide_eq_true hc k k' hkk
  exact hj (((idMatches_iff ..).1 h j).symm.trans ((idMatches_iff ..).1 (matchedId?_some hk) j))

/-- What each of the seven flags says (43 R120, R121). -/
theorem wakeFlags_spec {c : Config} (hc : c.wellFormed = true) (s : State) :
    ((wakeFlags c s).magic = true ↔ ∀ j : Fin 4, s.byte j.val = c.wakeMagic j) ∧
    ((wakeFlags c s).idhit = true ↔ ∃ k : Fin 4, ∀ j : Fin 4, s.byte (4 + j.val) = c.wakeId k j) ∧
    (∀ k : Fin 4, (∀ j : Fin 4, s.byte (4 + j.val) = c.wakeId k j) → (wakeFlags c s).idx = k) ∧
    ((wakeFlags c s).idhit = false → (wakeFlags c s).idx = 0) ∧
    ((wakeFlags c s).gap = true ↔ ∀ a, 8 ≤ a → a < 0x10 → s.byte a = 0) ∧
    ((wakeFlags c s).fill = true ↔ ∀ a, 0x10 ≤ a → a < 0x1F8 → s.byte a = filler a) ∧
    ((wakeFlags c s).trail = true ↔
      ∀ j : Fin 4, s.byte (0x1F8 + j.val) = c.wakeTrailer (j.castLE (by omega))) ∧
    ((wakeFlags c s).ckok = true ↔ checksum c s = s.word 127) := by
  refine ⟨?_, ?_, fun k hk => ?_, fun h => ?_, regionIs_iff .., regionIs_iff .., ?_, decide_eq_true_iff⟩
  · refine (regionIs_iff ..).trans ⟨fun h j => ?_, fun h a _ h2 => ?_⟩
    · rw [h j.val (by omega) (by omega), ofNat4_eq rfl]
    · rw [ofNat4_eq (j := ⟨a, by omega⟩) rfl]
      exact h ⟨a, by omega⟩
  · constructor
    · intro h
      obtain ⟨k, hk⟩ := Option.isSome_iff_exists.1 (h : (matchedId? c s).isSome = true)
      exact ⟨k, (idMatches_iff ..).1 (matchedId?_some hk)⟩
    · rintro ⟨k, hk⟩
      exact matchedId?_isSome ((idMatches_iff c s k).2 hk)
  · show (matchedId? c s).getD 0 = k
    rw [matchedId?_eq hc ((idMatches_iff c s k).2 hk)]
    rfl
  · have h' : matchedId? c s = none := Option.isNone_iff_eq_none.1 (Option.isSome_eq_false_iff.1 h)
    show (matchedId? c s).getD 0 = 0
    rw [h']
    rfl
  · refine (regionIs_iff ..).trans ⟨fun h j => ?_, fun h a h1 h2 => ?_⟩
    · rw [h _ (by omega) (by omega), ofNat8_eq (j := j.castLE (by omega)) (by simp)]
    · have := h ⟨a - 0x1F8, by omega⟩
      simp only [show 0x1F8 + (a - 0x1F8) = a by omega] at this
      exact this.trans (congrArg c.wakeTrailer (ofNat8_eq rfl).symm)

/-- The five structural flags and the index of a buffer that is frame `k` on bytes 0..507 (43 R120, 42 R112). -/
theorem wakeFlags_of_frame {c : Config} (hc : c.wellFormed = true) {s : State} {k : Fin 4}
    (h : ∀ a, a < 508 → s.byte a = wakeFrameBody c k a) :
    (wakeFlags c s).struct = true ∧ (wakeFlags c s).idx = k := by
  obtain ⟨h1, h2, h3, -, h5, h6, h7, -⟩ := wakeFlags_spec hc s
  have hid : ∀ j : Fin 4, s.byte (4 + j.val) = c.wakeId k j := by
    intro j
    rw [h _ (by omega), wakeFrameBody, if_neg (by omega), if_pos (by omega), ofNat4_eq (j := j) (by omega)]
  refine ⟨?_, h3 k hid⟩
  simp only [Flags.struct, Bool.and_eq_true]
  refine ⟨⟨⟨⟨h1.2 fun j => ?_, h2.2 ⟨k, hid⟩⟩, h5.2 fun a _ _ => ?_⟩, h6.2 fun a _ _ => ?_⟩, h7.2 fun j => ?_⟩
  · rw [h _ (by omega), wakeFrameBody, if_pos (by omega), ofNat4_eq rfl]
  · rw [h _ (by omega), wakeFrameBody, if_neg (by omega), if_neg (by omega), if_pos (by omega)]
  · rw [h _ (by omega), wakeFrameBody, if_neg (by omega), if_neg (by omega), if_neg (by omega), if_pos (by omega)]
  · rw [h _ (by omega), wakeFrameBody, if_neg (by omega), if_neg (by omega), if_neg (by omega), if_neg (by omega),
      ofNat8_eq (j := j.castLE (by omega)) (by simp)]

/-! ### Command frames -/

/-- A descramble undoes a scramble, sector by sector (40 R92). -/
theorem scrambledFrame_byte (c : Config) (f : Nat → Byte) (a : Nat) :
    scrambledFrame c f a = f a ^^^ byteOf (c.xorTable (Fin.ofNat 128 (a / 4))) (a % 4) := by
  rw [scrambledFrame, byteOf_xor, byteOf_wordOfBytes _ _ (by omega), show 4 * (a / 4) + a % 4 = a by omega]

/-- Zero-fill and embed of a payload in place: the plain frame, and its checksum (44 R130, R132). -/
theorem embed_plainFrame {c : Config} {s : State} {p : List Byte} (hp : p.length ≤ 508)
    (h : ∀ a, a < p.length → s.byte a = p.getD a 0) :
    checksum c (s.fill p.length (512 - p.length) fun _ => 0) = plainChecksum c p ∧
    ∀ a, a < 512 → (embed c (s.fill p.length (512 - p.length) fun _ => 0)).byte a = plainFrame c p a := by
  have hb : ∀ a < 508, (s.fill p.length (512 - p.length) fun _ => 0).byte a = plainBody p a := by
    intro a ha
    rw [State.byte_fill]
    split
    · rw [plainBody, List.getD_eq_default _ _ (by omega)]
    · exact h a (by omega)
  have hc : checksum c (s.fill p.length (512 - p.length) fun _ => 0) = plainChecksum c p := by
    rw [checksum, payload_of_bytes hb]
    rfl
  refine ⟨hc, fun a ha => ?_⟩
  rw [byte_embed, hc, plainFrame]
  by_cases h5 : a < 508
  · rw [if_neg (by omega), if_pos h5]
    exact hb a h5
  · rw [if_pos (by omega), if_neg h5]

end Sys2Proof.Machine
end

