-- ==== Sys2Proof/Laws/PerInstr.lean ====
section
/-! SUPPORT. The statement made per instruction: a well-formed operation's command word selects the row the opcode table gives
the operation (30_encoding R73). -/

namespace Sys2Proof.Laws.EncodeSelectsRow

/-- The word of a well-formed operation selects its row of the match and mask table. -/
def Statement (i : Instr) : Prop := i.wf = true → i.row.selects (encode i) = true

theorem zero : Statement .zero := fun _ => by decide
theorem scr : Statement .scr := fun _ => by decide
theorem ckcalc : Statement .ckcalc := fun _ => by decide
theorem ckembed : Statement .ckembed := fun _ => by decide
theorem ckverify : Statement .ckverify := fun _ => by decide
theorem wktmpl : Statement .wktmpl := fun _ => by decide
theorem wkid (k : BitVec 10) : Statement (.wkid k) := by
  intro h
  simp only [Instr.wf, decide_eq_true_eq] at h
  obtain ⟨n, hn, rfl⟩ : ∃ n : Nat, n ≤ 3 ∧ k = BitVec.ofNat 10 n := ⟨k.toNat, h, by simp⟩
  interval_cases n <;> decide
theorem wknext : Statement .wknext := fun _ => by decide
theorem wkrst (m : BitVec 10) : Statement (.wkrst m) := by
  intro h
  simp only [Instr.wf, decide_eq_true_eq] at h
  obtain ⟨n, hn, rfl⟩ : ∃ n : Nat, n ≤ 3 ∧ m = BitVec.ofNat 10 n := ⟨m.toNat, h, by simp⟩
  interval_cases n <;> decide
theorem wkchk : Statement .wkchk := fun _ => by decide
theorem cmdseal (n : BitVec 10) : Statement (.cmdseal n) := fun _ => by
  refine decide_eq_true ?_
  apply BitVec.eq_of_getLsbD_eq
  intro i hi
  simp only [encode, Instr.op, Instr.arg, Instr.row, BitVec.getLsbD_and, BitVec.getLsbD_append]
  interval_cases i <;> simp
theorem rspopen : Statement .rspopen := fun _ => by decide

end Sys2Proof.Laws.EncodeSelectsRow
end

