-- ==== Sys2Proof/Tests/Toy.lean ====
section
/-! SUPPORT. The TOY instantiation of 95_test_vectors section 2: invented there for numbers, not the hardware's constants. Also
states whose buffer holds a given sector, and what reads of them see. -/

namespace Sys2Proof.Tests
open Sys2Proof.Machine

/-- The TOY checksum: rotate left by one, add the next word, over the 127 words. In `Nat`, which the kernel evaluates fast. -/
def toyChecksum (w : Fin 127 → Word) : Word :=
  BitVec.ofNat 32
    ((List.range 127).foldl (fun c i => ((c <<< 1 ||| c >>> 31) % 2 ^ 32 + (w (Fin.ofNat 127 i)).toNat) % 2 ^ 32) 0)

/-- The TOY parameters. -/
def toy : Config where
  xorTable    := fun i => 0x9E3779B9 * BitVec.ofNat 32 (i.val + 1)
  cksumFn     := toyChecksum
  wakeMagic   := Config.documentMagic
  wakeId      := fun k j => BitVec.ofNat 8 (0xA0 + 0x10 * k.val + j.val)
  wakeTrailer := fun j => BitVec.ofNat 8 (0xE0 + j.val)

/-- A state after reset whose buffer holds `f`. -/
def loaded (f : Nat → Byte) : State := State.reset.fill 0 512 f

/-- The payload of 95 V1, then zeros. -/
def raidManagerName (a : Nat) : Byte :=
  if a < 12 then ([0x22, 0x03, 0x7B, 0x19, 0x0B, 0x00, 0x00, 0x00, 0x00, 0x01, 0x01, 0xFF] : List Byte).getD a 0 else 0

theorem loaded_byte (f : Nat → Byte) {a : Nat} (h : a < 512) : (loaded f).byte a = f a := by
  rw [loaded, State.byte_fill, if_pos (by omega)]

theorem loaded_word (f : Nat → Byte) {i : Nat} (h : i < 128) : (loaded f).word i = wordOfBytes f i :=
  wordOfBytes_congr fun j hj => loaded_byte f (by omega)

theorem loaded_checksum (c : Config) (f : Nat → Byte) : checksum c (loaded f) = c.cksumFn fun i => wordOfBytes f i.val := by
  rw [checksum, payload_of_bytes fun a ha => loaded_byte f (by omega)]

theorem loaded_region (f g : Nat → Byte) (lo n : Nat) (h : lo + n ≤ 512) :
    regionIs (loaded f) lo n g = (List.range' lo n).all fun a => decide (f a = g a) := by
  rw [Bool.eq_iff_iff, regionIs_iff, List.all_eq_true]
  simp only [List.mem_range'_1, decide_eq_true_eq]
  constructor
  · intro hb a ha
    rw [← loaded_byte f (by omega), hb a ha.1 ha.2]
  · intro hb a h1 h2
    rw [loaded_byte f (by omega), hb a ⟨h1, h2⟩]

end Sys2Proof.Tests
end

