-- ==== Sys2Proof/Tests/Slice0.lean ====
section
/-! SUPPORT. The model's own tests. Expected values are the spec's: words from the table of 30_encoding R73, numbers from
95_test_vectors (TOY where a parameter matters), else worked out from a rule by hand. A theorem named `witness_…` shows a
state and operands that meet the hypotheses of the statement it is named after. -/

namespace Sys2Proof.Tests
open Sys2Proof.Machine Sys2Proof.Claims

/-! ### Decoding, words written out from 30_encoding R73 -/

theorem test_decode_zero : decode 0b00000000000000000000000000000001 = .ok .zero := by decide
theorem test_decode_scr : decode 0b00000000000000000000000000000010 = .ok .scr := by decide
theorem test_decode_ckcalc : decode 0b00000000000000000000000000010000 = .ok .ckcalc := by decide
theorem test_decode_ckembed : decode 0b00000000000000000000000000010001 = .ok .ckembed := by decide
theorem test_decode_ckverify : decode 0b00000000000000000000000000010010 = .ok .ckverify := by decide
theorem test_decode_wktmpl : decode 0b00000000000000000000000000100000 = .ok .wktmpl := by decide
theorem test_decode_wkid : decode 0b00000000000000100000000000100001 = .ok (.wkid 2) := by decide
theorem test_decode_wknext : decode 0b00000000000000000000000000100010 = .ok .wknext := by decide
theorem test_decode_wkrst : decode 0b00000000000000110000000000100011 = .ok (.wkrst 3) := by decide
theorem test_decode_wkchk : decode 0b00000000000000000000000000101000 = .ok .wkchk := by decide
theorem test_decode_cmdseal : decode 0b00000011111111110000000000110000 = .ok (.cmdseal 1023) := by decide
theorem test_decode_rspopen : decode 0b00000000000000000000000000110001 = .ok .rspopen := by decide

/-- The illegal words of 95 section 3.1. -/
theorem test_decode_illegal :
    decode 0x00000000 = .error .unknownOp ∧ decode 0x000000FF = .error .unknownOp ∧
    decode 0x00000003 = .error .unknownOp ∧ decode 0x00000130 = .error .reservedBits ∧
    decode 0x04000030 = .error .reservedBits ∧ decode 0x80000002 = .error .reservedBits ∧
    decode 0x00010001 = .error .operandNotZero ∧ decode 0x00010022 = .error .operandNotZero ∧
    decode 0x00040021 = .error .operandTooLarge ∧ decode 0x00040023 = .error .operandTooLarge := by decide

theorem test_decode_table_word : decodeTableWord 32 0x000C0030 = some (.cmdseal 12) := by decide

/-- The encodings of 95 sections 3.1 and 4. -/
theorem test_encode :
    encode (.cmdseal 508) = 0x01FC0030 ∧ encode (.wkid 3) = 0x00030021 ∧ encode (.wkrst 1) = 0x00010023 := by decide

/-! ### Well-formedness: each check refuses an ill-formed term -/

theorem test_wf_refuses_index_4 : (Instr.wkid 4).wf = false := by decide
theorem test_wf_refuses_mask_4 : (Instr.wkrst 4).wf = false := by decide
theorem test_wf_accepts_every_length : (Instr.cmdseal 1023).wf = true := by decide

/-- TOY with the identifier of frame 1 repeated as that of frame 3 (00_scope R10). -/
def repeatedId : Config := { toy with wakeId := fun k => toy.wakeId (if k = 3 then 1 else k) }

theorem test_config_refuses_repeated_identifier :
    repeatedId.wellFormed = false ∧ repeatedId.check.isNone = true := by decide
theorem test_config_accepts_toy : toy.wellFormed = true := by decide

/-! ### Assembler syntax (30_encoding R77, R78) -/

theorem test_assemble_command :
    listing? [['C', 'M', 'D', 'S', 'E', 'A', 'L', ' ', '0', 'x', '1', 'F', 'D', ' ', ';', 'x']] = some [.issue 0x01FD0030] := by
  decide
theorem test_assemble_pseudo :
    assembleLine? ['W', 'K', 'F', 'R', 'A', 'M', 'E', ' ', '2'] = some [.wktmpl, .wkid 2] := by decide
theorem test_assemble_port :
    listing? [['R', 'e', 'g', 'R', 'e', 'a', 'd', ' ', 'S', 'T', 'A', 'T', 'U', 'S']] = some [.regRead 0] := by decide
theorem test_assemble_register_number :
    listing? [['R', 'e', 'g', 'R', 'e', 'a', 'd', ' ', '3']] = some [.regRead 3] ∧
    listing? [['R', 'e', 'g', 'R', 'e', 'a', 'd', ' ', '4']] = none := by decide

/-! ### Ports and reset (95 sections 3.2, 3.8) -/

theorem test_port_little_endian :
    (bufRead8 12 (bufWrite32 3 0x11223344 State.reset), bufRead8 15 (bufWrite32 3 0x11223344 State.reset)) = (0x44, 0x11) := by
  decide
theorem test_port_word_read :
    bufRead32 127 (bufWrite8 511 0xE6 (bufWrite8 510 0x4E (bufWrite8 509 0xD0 (bufWrite8 508 0xD9 State.reset)))) = 0xE64ED0D9 := by
  decide

/-- The start state of 95 section 3.1 but for the buffer, which no word there reads or writes. -/
def start : State := { State.reset with ckCalc := 5, ckRecv := 6, wseq := 2, vseq := 3 }

theorem test_port_seq : regRead 3 start = 0x32 := by decide
theorem test_reset_awake : regRead 3 (resetBlock { start with vseq := 4 }) = 0 := by decide

/-! ### Operations, the checks of 95 section 3 -/

/-- 95 section 3.1: illegal words. -/
theorem test_illegal_word : issueWith toy 0x00010001 start = { start with status := 4 } := by decide

theorem test_zero (s : State) : (operate toy .zero s).byte 511 = 0 := by
  simp [operate, zeroOp, State.byte_fill]

/-- 95 section 3.3, TOY. -/
theorem test_scr_word : (operate toy .scr (loaded raidManagerName)).word 0 = 0x874C7A9B := by
  have h := word_scramble toy (loaded raidManagerName) 0
  rw [loaded_word _ (by omega)] at h
  exact h.trans (by decide)
theorem test_scr_stored_checksum : (operate toy .scr (loaded fun _ => 0)).word 127 = 0x1BBCDC80 := by
  have h := word_scramble toy (loaded fun _ => 0) 127
  rw [loaded_word _ (by decide)] at h
  exact h.trans (by decide)

/-- 95 section 2, V1, TOY. -/
theorem toyChecksum_raidManagerName : toy.cksumFn (fun i => wordOfBytes raidManagerName i.val) = 0xE64ED0D9 := by
  decide +kernel

/-- 95 section 3.4, TOY. -/
theorem test_ckcalc : (operate toy .ckcalc (loaded raidManagerName)).ckCalc = 0xE64ED0D9 := by
  simp only [operate, ckcalcOp, State.finish_ckCalc, loaded_checksum, toyChecksum_raidManagerName]
theorem test_ckembed : (operate toy .ckembed (loaded raidManagerName)).byte 508 = 0xD9 := by
  have h : ∀ s : State, (operate toy .ckembed s).byte 508 = byteOf (checksum toy s) 0 := fun s => by
    simp [operate, ckembedOp, byte_embed]
  rw [h, loaded_checksum, toyChecksum_raidManagerName]
  decide
theorem test_ckverify_mismatch : (operate toy .ckverify (loaded raidManagerName)).status = 2 := by
  simp only [operate, ckverifyOp, verify_spec, loaded_checksum, toyChecksum_raidManagerName]
  rw [loaded_word _ (by omega)]
  decide
theorem test_ckverify_match : (operate toy .ckverify (embed toy (loaded raidManagerName))).status = 0x101 := by
  simp [operate, ckverifyOp, verify_spec]

/-- 95 S3: the last byte of the gap, of the first run of the filler, and the first of the second run. -/
theorem test_wktmpl (s : State) :
    ((operate toy .wktmpl s).byte 0x0F, (operate toy .wktmpl s).byte 0xFF, (operate toy .wktmpl s).byte 0x100)
      = (0x00, 0xFF, 0x00) := by
  simp only [operate, wktmplOp, State.byte_finish, byte_template toy s (show 0x0F < 512 by omega),
    byte_template toy s (show 0xFF < 512 by omega), byte_template toy s (show 0x100 < 512 by omega)]
  decide
/-- 95 section 3.5, TOY: bytes 0x1F7 to 0x1F8. -/
theorem test_wktmpl_trailer (s : State) :
    ((operate toy .wktmpl s).byte 0x1F7, (operate toy .wktmpl s).byte 0x1F8) = (0xF7, 0xE0) := by
  simp only [operate, wktmplOp, State.byte_finish, byte_template toy s (show 0x1F7 < 512 by omega),
    byte_template toy s (show 0x1F8 < 512 by omega)]
  decide

/-- 95 section 3.5, TOY. -/
theorem toyChecksum_frame2 : wakeChecksum toy 2 = 0xA6A6FF0E := by decide +kernel
/-- 95 section 3.5, TOY. -/
theorem toyChecksum_frame3 : wakeChecksum toy 3 = 0xCCB92510 := by decide +kernel

theorem test_wkid (s : State) : (operate toy (.wkid 3) (template toy s)).ckCalc = 0xCCB92510 := by
  have h := (identify_frame (c := toy) (k := 3) fun a ha hn => byte_template_frame toy s 3 ha hn).1
  simp only [operate, wkidOp, show frameIndex? 3 = some 3 by decide, State.finish_ckCalc, identify_ckCalc, h,
    toyChecksum_frame3]
theorem test_wkid_byte (s : State) : (operate toy (.wkid 1) s).byte 7 = 0xB3 := by
  simp only [operate, wkidOp, show frameIndex? 1 = some 1 by decide, State.byte_finish, byte_identify]
  rw [if_neg (by omega), if_pos (by omega)]
  decide
theorem test_wknext (s : State) : (operate toy .wknext { s with wseq := 2 }).ckCalc = 0xA6A6FF0E := by
  have h := (identify_frame (c := toy) (k := 2) fun a ha hn => byte_template_frame toy { s with wseq := 2 } 2 ha hn).1
  simp only [operate, wknextOp, show nextFrame? 2 = some 2 by decide, State.finish_ckCalc, identify_ckCalc, h,
    toyChecksum_frame2]
theorem test_wknext_overrun (s : State) :
    operate toy .wknext { s with wseq := 4 } = { s with wseq := 4, status := 5 } := rfl
theorem test_wkrst_builder : regRead 3 (operate toy (.wkrst 1) start) = 0x30 := by decide
theorem test_wkrst_tracker : regRead 3 (operate toy (.wkrst 2) start) = 0x02 := by decide

/-- The flags of a state that holds the sector `f`, read from the sector (43 R120). -/
def sectorFlags (c : Config) (f : Nat → Byte) : Flags :=
  let hit k := (List.range' 4 4).all fun a => decide (f a = c.wakeId k (Fin.ofNat 4 (a - 4)))
  let id? : Option (Fin 4) :=
    if hit 0 then some 0 else if hit 1 then some 1 else if hit 2 then some 2 else if hit 3 then some 3 else none
  { ckok  := decide (c.cksumFn (fun i => wordOfBytes f i.val) = wordOfBytes f 127)
    magic := (List.range' 0 4).all fun a => decide (f a = c.wakeMagic (Fin.ofNat 4 a))
    idhit := id?.isSome
    gap   := (List.range' 8 8).all fun a => decide (f a = 0)
    fill  := (List.range' 0x10 0x1E8).all fun a => decide (f a = filler a)
    trail := (List.range' 0x1F8 4).all fun a => decide (f a = c.wakeTrailer (Fin.ofNat 8 (a - 0x1F8)))
    idx   := id?.getD 0 }

theorem loaded_flags (c : Config) (f : Nat → Byte) : wakeFlags c (loaded f) = sectorFlags c f := by
  simp only [wakeFlags, sectorFlags, matchedId?, idMatches, checksumOk, loaded_checksum, loaded_word f (show 127 < 128 by omega),
    loaded_region _ _ 0 4 (by omega), loaded_region _ _ 4 4 (by omega), loaded_region _ _ 8 8 (by omega),
    loaded_region _ _ 0x10 0x1E8 (by omega), loaded_region _ _ 0x1F8 4 (by omega)]

theorem loaded_wkchk (c : Config) (f : Nat → Byte) (v : BitVec 3) :
    (operate c .wkchk { loaded f with vseq := v }).status =
      pack (wakeVerdict (sectorFlags c f) v).1 (sectorFlags c f) := by
  rw [← loaded_flags]
  rfl

/-- 95 section 3.6, TOY: the frame 1 with its checksum in place. -/
def toyFrame1 (a : Nat) : Byte := if a < 508 then wakeFrameBody toy 1 a else byteOf 0xDD55D64C (a - 508)

theorem toyFrame1_flags : sectorFlags toy toyFrame1 = ⟨true, true, true, true, true, true, 1⟩ := by decide +kernel

theorem test_wkchk_in_order : (operate toy .wkchk { loaded toyFrame1 with vseq := 1 }).status = 0x7F01 := by
  rw [loaded_wkchk, toyFrame1_flags]
  decide
/-- 95 section 3.6, TOY: `SB[0x1F9] = 0x1E`. -/
theorem test_wkchk_trailer :
    (operate toy .wkchk { loaded (fun a => if a = 0x1F9 then 0x1E else toyFrame1 a) with vseq := 1 }).status = 0x5E06 := by
  rw [loaded_wkchk]
  decide +kernel

/-- 95 section 3.7, TOY. -/
theorem test_cmdseal (s : State) : (operate toy (.cmdseal 0) s).word 127 = 0x1BBCDC80 := by
  have hz : checksum toy (s.fill 0 512 fun _ => 0) = 0 := by
    rw [checksum, payload_of_bytes (f := fun _ => 0) fun a ha => by rw [State.byte_fill, if_pos (by omega)]]
    decide +kernel
  have h := word_scramble toy (embed toy (s.fill 0 512 fun _ => 0)) 127
  have e : ((127 : Fin 128) : Nat) = 127 := rfl
  rw [e, word_embed, hz] at h
  simp only [operate, cmdsealOp, show payloadLength? 0 = some 0 by decide, State.word_finish, Nat.sub_zero, h]
  decide
theorem test_cmdseal_too_long (s : State) : operate toy (.cmdseal 509) s = { s with status := 3 } := rfl

/-- 95 P3, TOY: the sealed frame opened. -/
theorem test_rspopen : (operate toy .rspopen (scramble toy (embed toy (loaded raidManagerName)))).ckCalc = 0xE64ED0D9 := by
  have h : checksum toy (scramble toy (scramble toy (embed toy (loaded raidManagerName))))
      = checksum toy (embed toy (loaded raidManagerName)) :=
    checksum_congr toy fun a ha => by
      rw [byte_scramble _ _ (by omega), byte_scramble _ _ (by omega), BitVec.xor_assoc, BitVec.xor_self, BitVec.xor_zero]
  simp only [operate, rspopenOp, verify_spec, h, checksum_embed, loaded_checksum, toyChecksum_raidManagerName]

/-! ### Witnesses: states and operands that meet the hypotheses of the statements -/

theorem witness_DecodeOfEncode :
    (Instr.wkid 3).wf = true ∧ (Instr.wkrst 3).wf = true ∧ (Instr.cmdseal 1023).wf = true := by decide

theorem witness_LegalWordIsOpPlusArg : decode 0x01FD0030 = .ok (.cmdseal 509) := by decide

theorem witness_DecodeIsTheOpcodeTable :
    decode 0x00030021 = .ok (.wkid 3) ∧ decode 0x00040021 = .error .operandTooLarge := by decide

theorem witness_StepRunsDecodedOperation :
    (State.reset.withFetchWord 32 0x00000010).inbox = .issue 0x00000010 :: [] ∧
    decode 0x00000010 = .ok .ckcalc ∧
    (State.reset.withFetchWord 32 0x00000130).inbox = .issue 0x00000130 :: [] ∧
    decode 0x00000130 = .error .reservedBits := by decide

/-- One word for each clause of the illegal set, and a word outside it. -/
theorem witness_IllegalWordOnlySetsStatus :
    (∀ w ∈ ([0x00000101, 0x04000030, 0x00000000, 0x00010001, 0x00040023] : List Nat),
      IllegalSet (BitVec.ofNat 32 w)) ∧
    ¬ IllegalSet 0x00030023 := by
  unfold IllegalSet
  decide

theorem witness_StepWithoutActionIsIdle : State.reset.inbox = [] := rfl

theorem witness_StepKeepsInvariant :
    (State.reset.withFetchWord 32 0x00000000).Inv ∧
    step (State.reset.withFetchWord 32 0x00000000) = .next { State.reset with status := 4 } :=
  ⟨by decide, rfl⟩

theorem witness_EveryIssueRewritesStatus :
    (∀ cw, HostAction.regRead 0 ≠ .issue cw) ∧ HostAction.regRead 0 ≠ .reset := by simp

theorem witness_OperationsKeepTheWriteMatrix :
    keepsBuffer .wkchk = true ∧ keepsComputed (.wkrst 3) = true ∧ keepsReceived (.cmdseal 508) = true ∧
    keepsWseq (.wkrst 2) = true ∧ keepsVseq (.wkrst 1) = true := by decide

theorem witness_AwakeGatesNothing : Instr.cmdseal 12 ≠ .wkchk ∧ ∀ m, Instr.cmdseal 12 ≠ .wkrst m := by simp

theorem witness_IdempotentOperations : idempotent .wktmpl = true ∧ idempotent (.wkid 3) = true := by decide

theorem holds_loaded (f : Nat → Byte) : Holds (loaded f) f := fun _ ha => loaded_byte f ha

theorem witness_ScrTwiceRestoresBuffer : SameBuffer (operate toy .scr start) (operate toy .scr start) := fun _ _ => rfl

theorem witness_ScrKeepsDifferences : Holds (loaded fun _ => 0) (fun _ => 0) := holds_loaded _

/-- A state whose stored checksum is wrong by one, on any payload. -/
def misstored (s : State) : State := s.setWord 127 (checksum Config.hardware s + 1)

theorem misstored_mismatch (s : State) : checksum Config.hardware (misstored s) ≠ (misstored s).word 127 := by
  have h : checksum Config.hardware (misstored s) = checksum Config.hardware s :=
    checksum_congr _ fun a ha => by rw [misstored, State.byte_setWord, if_neg (by omega)]
  rw [h, misstored, State.word_setWord_same]
  intro e
  simp at e

theorem witness_CkverifyComparesChecksums :
    (∃ s t, exec .ckverify s = .next t ∧ t.ckCalc = t.ckRecv) ∧ ∃ s t, exec .ckverify s = .next t ∧ t.ckCalc ≠ t.ckRecv :=
  ⟨⟨embed Config.hardware State.reset, _, rfl, by simp [ckverifyOp, verify_spec]⟩,
    ⟨misstored State.reset, _, rfl, by simpa only [ckverifyOp, verify_spec] using misstored_mismatch _⟩⟩

/-- Two buffers that agree on bytes 0..507 and differ in the stored checksum. -/
theorem witness_ChecksumCoversPayloadAlone :
    (∀ a, a < 508 → (loaded fun _ => 0).byte a = ((loaded fun _ => 0).setByte 508 1).byte a) ∧
    (loaded fun _ => 0).byte 508 ≠ ((loaded fun _ => 0).setByte 508 1).byte 508 := by
  constructor
  · intro a ha
    rw [State.byte_setByte, if_neg (by omega)]
  · rw [State.byte_setByte, if_pos rfl, loaded_byte _ (by omega)]
    decide

/-- The ends of the two ranges of 42 R110: gap bytes 4 and 0x0F, filler bytes 0x10 and 0x1F7. -/
theorem witness_WktmplBuildsTemplate (s : State) :
    ((operate Config.hardware .wktmpl s).byte 4, (operate Config.hardware .wktmpl s).byte 0x0F,
      (operate Config.hardware .wktmpl s).byte 0x10, (operate Config.hardware .wktmpl s).byte 0x1F7) = (0, 0, 0x10, 0xF7) := by
  simp only [operate, wktmplOp, State.byte_finish, byte_template Config.hardware s (show 4 < 512 by omega),
    byte_template Config.hardware s (show 0x0F < 512 by omega), byte_template Config.hardware s (show 0x10 < 512 by omega),
    byte_template Config.hardware s (show 0x1F7 < 512 by omega)]
  decide

theorem witness_WkidWritesIdentifier : 3 < (4 : BitVec 10).toNat ∧ 3 < (1023 : BitVec 10).toNat := by decide

theorem witness_WakeFrameIsTheLayout : (0 : Fin 4) ≠ 3 ∧ 8 < 0x10 ∧ 0x0F < 0x10 ∧ 0x1F7 < 0x1F8 ∧ 507 < 508 := by decide

theorem witness_BuilderGivesWakeFrames :
    Holds (loaded (wakeFrame Config.hardware 3)) (wakeFrame Config.hardware 3) := holds_loaded _

theorem witness_WknextBuildsNextFrame :
    ({ State.reset with wseq := 3 } : State).wseq.toNat = (3 : Fin 4).val ∧
    4 ≤ ({ State.reset with wseq := 4 } : State).wseq.toNat ∧ State.reset.wseq = 0 := by decide

theorem witness_WkrstClearsCounters : (3 : BitVec 10).toNat ≤ 3 ∧ 3 < (4 : BitVec 10).toNat := by decide

theorem witness_OperandAboveThreeIsIllegalCommand : 3 < (4 : BitVec 10).toNat := by decide

/-- Frame `k` up to its stored checksum, which is `stored`. -/
def storing (k : Fin 4) (stored : Word) (a : Nat) : Byte :=
  if a < 508 then wakeFrameBody Config.hardware k a else byteOf stored (a - 508)

theorem storing_flags (k : Fin 4) (stored : Word) :
    (wakeFlags Config.hardware (loaded (storing k stored))).struct = true ∧
    (wakeFlags Config.hardware (loaded (storing k stored))).idx = k ∧
    ((wakeFlags Config.hardware (loaded (storing k stored))).ckok = true ↔ wakeChecksum Config.hardware k = stored) := by
  have hb : ∀ a, a < 508 → (loaded (storing k stored)).byte a = wakeFrameBody Config.hardware k a := fun a ha => by
    rw [loaded_byte _ (by omega), storing, if_pos ha]
  obtain ⟨h1, h2⟩ := wakeFlags_of_frame Config.hardware_wellFormed hb
  refine ⟨h1, h2, ?_⟩
  have hc : checksum Config.hardware (loaded (storing k stored)) = wakeChecksum Config.hardware k := by
    rw [checksum, payload_of_bytes hb]
    rfl
  have hw : (loaded (storing k stored)).word 127 = stored := by
    refine word_ext fun j hj => ?_
    rw [State.word, byteOf_wordOfBytes _ _ hj, loaded_byte _ (by omega), storing, if_neg (by omega),
      show 4 * 127 + j - 508 = j by omega]
  show decide _ = true ↔ _
  rw [decide_eq_true_iff, hc, hw]

/-- The lines of 43 R123 with `STRUCT = 1`: a wrong stored checksum; frame 0; frame 3 in order; frame 3 out of order. -/
theorem witness_WkchkClassifiesBuffer_struct :
    (∃ s, (wakeFlags Config.hardware s).struct = true ∧ (wakeFlags Config.hardware s).ckok = false) ∧
    (∃ s, (wakeFlags Config.hardware s).struct = true ∧ (wakeFlags Config.hardware s).ckok = true ∧
      (wakeFlags Config.hardware s).idx = 0) ∧
    ∀ v : BitVec 3, ∃ s, (wakeFlags Config.hardware s).struct = true ∧ (wakeFlags Config.hardware s).ckok = true ∧
      (wakeFlags Config.hardware s).idx = 3 ∧ s.vseq = v := by
  refine ⟨⟨_, (storing_flags 1 (wakeChecksum Config.hardware 1 + 1)).1, ?_⟩,
    ⟨_, (storing_flags 0 (wakeChecksum Config.hardware 0)).1, ?_, (storing_flags 0 _).2.1⟩,
    fun v => ⟨{ loaded (storing 3 (wakeChecksum Config.hardware 3)) with vseq := v },
      (storing_flags 3 _).1, ?_, (storing_flags 3 _).2.1, rfl⟩⟩
  · rw [Bool.eq_false_iff]
    intro h
    simpa using (storing_flags 1 _).2.2.1 h
  · exact (storing_flags 0 _).2.2.2 rfl
  · exact (storing_flags 3 _).2.2.2 rfl

/-- Some byte is the first byte of no identifier, whatever the four identifiers are. -/
theorem unused_first_byte : ∃ b : Byte, ∀ k, Config.hardware.wakeId k 0 ≠ b := by
  by_contra h
  push Not at h
  choose g hg using h
  obtain ⟨i, j, hne, he⟩ :=
    Fintype.exists_ne_map_eq_of_card_lt (fun i : Fin 5 => g (BitVec.ofNat 8 i.val)) (by decide)
  have hb : BitVec.ofNat 8 i.val = BitVec.ofNat 8 j.val := by
    rw [← hg (BitVec.ofNat 8 i.val), ← hg (BitVec.ofNat 8 j.val)]
    exact congrArg (fun k => Config.hardware.wakeId k 0) he
  revert hne hb
  clear he hg g
  revert i j
  decide

/-- The other lines of 43 R123: no magic; the magic and no frame. And a buffer that holds no identifier. -/
theorem witness_WkchkClassifiesBuffer_noframe :
    (∃ s, (wakeFlags Config.hardware s).magic = false) ∧
    (∃ s, (wakeFlags Config.hardware s).magic = true ∧ (wakeFlags Config.hardware s).struct = false) ∧
    ∃ s, (wakeFlags Config.hardware s).idhit = false := by
  refine ⟨⟨loaded fun _ => 0, ?_⟩,
    ⟨loaded fun a => if a < 4 then Config.hardware.wakeMagic (Fin.ofNat 4 a) else 1, ?_, ?_⟩, ?_⟩
  · rw [Bool.eq_false_iff]
    intro h
    have h0 := (wakeFlags_spec Config.hardware_wellFormed _).1.1 h 0
    rw [loaded_byte _ (by decide)] at h0
    exact absurd h0 (by decide)
  · refine (wakeFlags_spec Config.hardware_wellFormed _).1.2 fun j => ?_
    rw [loaded_byte _ (by omega), if_pos j.isLt, ofNat4_eq rfl]
  · rw [Bool.eq_false_iff]
    intro h
    simp only [Flags.struct, Bool.and_eq_true] at h
    have h8 := (wakeFlags_spec Config.hardware_wellFormed _).2.2.2.2.1.1 h.1.1.2 8 (by omega) (by omega)
    rw [loaded_byte _ (by omega)] at h8
    exact absurd h8 (by decide)
  · obtain ⟨b, hb⟩ := unused_first_byte
    refine ⟨loaded fun _ => b, ?_⟩
    rw [Bool.eq_false_iff]
    intro h
    obtain ⟨k, hk⟩ := (wakeFlags_spec Config.hardware_wellFormed _).2.1.1 h
    have h0 := hk 0
    rw [loaded_byte _ (by decide)] at h0
    exact hb k h0.symm

theorem witness_WkchkAcceptsExactlyTheFrames :
    ∀ k : Fin 4, Holds (loaded (wakeFrame Config.hardware k)) (wakeFrame Config.hardware k) := fun _ => holds_loaded _

theorem witness_WakeOrderIsObservable :
    State.reset.vseq = 0 ∧ ([0, 2, 1, 3] : List (Fin 4)).length = 4 ∧ ([0, 2, 1, 3] : List (Fin 4)) ≠ [0, 1, 2, 3] := by
  decide

theorem witness_AwakeExactlyAfterFullSequence :
    State.reset.vseq = 0 ∧ ([0, 1, 2, 3] : List (Fin 4)) <:+ [2, 0, 1, 2, 3] ∧ ¬([0, 1, 2, 3] : List (Fin 4)) <:+ [0, 1, 1, 2, 3] := by
  decide

/-- A state that holds frame 3 and is about to check it, after frames 0, 1 and 2: the last step to `AWAKE`. -/
theorem witness_StepKeepsTrackerAtProgress :
    let s : State := { loaded (wakeFrame Config.hardware 3) with inbox := [.issue 0x00000028], vseq := 3 }
    s.vseq.toNat = progress [0, 1, 2] ∧ NextHistory s [0, 1, 2] [0, 1, 2, 3] ∧ (∃ t, step s = .next t) ∧
    progress [0, 1, 2, 3] = 4 :=
  ⟨by decide, .inl ⟨3, holds_loaded _, rfl⟩, ⟨_, rfl⟩, by decide⟩

/-- The reset action, a restart of the tracker, an unmarked sector and a marked sector that is no frame. -/
theorem witness_StepKeepsTrackerAtProgress_cleared :
    NextHistory { State.reset with inbox := [.reset] } [0, 1] [] ∧
    NextHistory (State.reset.withFetchWord 32 0x00020023) [0, 1] [] ∧
    NextHistory (State.reset.withFetchWord 32 0x00010023) [0, 1] [0, 1] ∧
    NextHistory { loaded (fun _ => 0) with inbox := [.issue 0x00000028] } [0, 1] [0, 1] ∧
    NextHistory { loaded (fun a => if a < 4 then Config.hardware.wakeMagic (Fin.ofNat 4 a) else 1) with
      inbox := [.issue 0x00000028] } [0, 1] [] := by
  refine ⟨rfl, rfl, rfl, .inr (.inl ⟨⟨0, ?_⟩, rfl⟩), .inr (.inr ⟨fun j => ?_, fun k h => ?_, rfl⟩)⟩
  · intro h
    have h0 := (loaded_byte (fun _ => 0) (show 0 < 512 by omega)).symm.trans h
    exact absurd h0 (by decide)
  · refine (loaded_byte _ (by omega)).trans ?_
    rw [if_pos j.isLt, ofNat4_eq rfl]
  · have h8 := (loaded_byte (fun a => if a < 4 then Config.hardware.wakeMagic (Fin.ofNat 4 a) else 1)
      (show 8 < 512 by omega)).symm.trans (h 8 (by omega))
    rw [if_neg (by omega), wakeFrame_body (by omega), wakeFrameBody, if_neg (by omega), if_neg (by omega),
      if_pos (by omega)] at h8
    exact absurd h8 (by decide)

theorem witness_UnmarkedSectorsKeepTracker :
    ∀ f ∈ [fun _ : Nat => (0 : Byte)], ∃ j : Fin 4, f j.val ≠ Config.hardware.wakeMagic j := by
  intro f hf
  rw [List.mem_singleton] at hf
  subst hf
  exact ⟨0, by decide⟩

/-- The longest payload, and the empty one. -/
theorem witness_CmdsealSealsPayload :
    (List.replicate 508 (0x5A : Byte)).length ≤ 508 ∧
    (∀ a, a < (List.replicate 508 (0x5A : Byte)).length →
      (loaded fun a => (List.replicate 508 (0x5A : Byte)).getD a 0).byte a = (List.replicate 508 (0x5A : Byte)).getD a 0) ∧
    ([] : List Byte).length ≤ 508 := by
  refine ⟨le_of_eq List.length_replicate, fun a ha => loaded_byte _ ?_, by simp⟩
  rw [List.length_replicate] at ha
  omega

theorem witness_CmdsealIsZeroFillEmbedScramble :
    (508 : BitVec 10).toNat ≤ 508 ∧ 508 < (509 : BitVec 10).toNat := by decide

theorem witness_CmdsealRejectsLongPayload : 508 < (509 : BitVec 10).toNat ∧ 508 < (1023 : BitVec 10).toNat := by decide

theorem rspopen_checksums (s : State) : ∃ t, exec .rspopen (scramble Config.hardware s) = .next t ∧
    t.ckCalc = checksum Config.hardware s ∧ t.ckRecv = s.word 127 := by
  have h : ∀ a, a < 512 → (scramble Config.hardware (scramble Config.hardware s)).byte a = s.byte a := fun a ha => by
    rw [byte_scramble _ _ ha, byte_scramble _ _ ha, BitVec.xor_assoc, BitVec.xor_self, BitVec.xor_zero]
  refine ⟨_, rfl, ?_, ?_⟩
  · simp only [rspopenOp, verify_spec]
    exact checksum_congr _ fun a ha => h a (by omega)
  · simp only [rspopenOp, verify_spec]
    exact wordOfBytes_congr fun j hj => h _ (by omega)

theorem witness_RspopenDescramblesAndVerifies :
    (∃ s t, exec .rspopen s = .next t ∧ t.ckCalc = t.ckRecv) ∧ ∃ s t, exec .rspopen s = .next t ∧ t.ckCalc ≠ t.ckRecv := by
  obtain ⟨t, ht, h1, h2⟩ := rspopen_checksums (embed Config.hardware State.reset)
  obtain ⟨u, hu, h3, h4⟩ := rspopen_checksums (misstored State.reset)
  refine ⟨⟨_, t, ht, ?_⟩, ⟨_, u, hu, ?_⟩⟩
  · rw [h1, h2, checksum_embed, word_embed]
  · rw [h3, h4]
    exact misstored_mismatch _

/-- A state that holds the payload of 95 S1 and is about to seal and open it. -/
theorem witness_SealThenOpenRoundTrip :
    let p : List Byte := [0x22, 0x03, 0x7B, 0x19]
    let s : State := { loaded (fun a => p.getD a 0) with
      inbox := [.issue (encode (.cmdseal (BitVec.ofNat 10 p.length))), .issue (encode .rspopen)] }
    p.length ≤ 508 ∧ (∀ a, a < p.length → s.byte a = p.getD a 0) ∧
    s.inbox = .issue (encode (.cmdseal (BitVec.ofNat 10 p.length))) :: .issue (encode .rspopen) :: [] :=
  ⟨by simp, fun a ha => loaded_byte _ (by simp at ha; omega), rfl⟩

/-- An error confined to the stored checksum, on the seal of the empty payload. -/
theorem witness_WireCorruptionReachesPlainForm :
    let e : Nat → Byte := fun a => if a = 511 then 0x80 else 0
    ([] : List Byte).length ≤ 508 ∧
    Holds (loaded fun a => sealedFrame Config.hardware [] a ^^^ e a) (fun a => sealedFrame Config.hardware [] a ^^^ e a) ∧
    (∀ a, a < 508 → e a = 0) ∧ ∃ a, 508 ≤ a ∧ a < 512 ∧ e a ≠ 0 :=
  ⟨by simp, holds_loaded _, fun a ha => if_neg (by omega), 511, by omega, by omega, by decide⟩

theorem witness_FrameForgetsTrailingZeros : (List.replicate 507 (1 : Byte)).length < 508 ∧ 511 < 512 := by
  rw [List.length_replicate]
  decide

/-- A channel whose writes fail as `f` says and whose reads answer `q`. -/
def channel (f : Nat → Bool) (q : Option (Vector Byte 512)) : ChannelOracle := ⟨f, fun _ => q⟩

theorem witness_HandshakeWritesFourFrames : ∀ k, k < 4 → (channel (fun _ => false) none).writeFails k = false :=
  fun _ _ => rfl

/-- The last write fails; the first fails. -/
theorem witness_HandshakeStopsAtFirstError :
    (channel (fun k => k == 3) none).writeFails (3 : Fin 4).val = true ∧
    (∀ j, j < (3 : Fin 4).val → (channel (fun k => k == 3) none).writeFails j = false) ∧
    (channel (fun _ => true) none).writeFails (0 : Fin 4).val = true ∧
    ∀ j, j < (0 : Fin 4).val → (channel (fun _ => true) none).writeFails j = false := by decide

theorem witness_ExchangeRejectsLongPayload : 508 < (List.replicate 509 (1 : Byte)).length := by
  rw [List.length_replicate]
  decide

theorem witness_ExchangeReportsChannelError :
    (List.replicate 508 (1 : Byte)).length ≤ 508 ∧ (channel (fun _ => true) none).writeFails 0 = true ∧
    (channel (fun _ => false) none).writeFails 0 = false ∧ (channel (fun _ => false) none).readAnswer 0 = none :=
  ⟨le_of_eq List.length_replicate, rfl, rfl, rfl⟩

theorem witness_ExchangeReturnsPayloadAndIntegrity :
    ([] : List Byte).length ≤ 508 ∧
    (channel (fun _ => false) (some (Vector.replicate 512 0))).writeFails 0 = false ∧
    (channel (fun _ => false) (some (Vector.replicate 512 0))).readAnswer 0 = some (Vector.replicate 512 0) :=
  ⟨by simp, rfl, rfl⟩

end Sys2Proof.Tests
end

section
/-! PROOFS, family 10_state. Operations whose operand or counter may be out of range, one equation a branch; field by field,
what an operation writes, leaves and does not read (10_state R36); the invariant of a step; then the theorems that settle the
family's statements. -/

namespace Sys2Proof.Proofs.StateLaws
open Sys2Proof.Machine Sys2Proof.Claims

/-! ### The branching operations, one equation a branch -/

section branches
variable (c : Config) {arg : BitVec 10} (s : State)

theorem wkidOp_of_lt (h : arg.toNat < 4) : wkidOp c arg s = (identify c ⟨arg.toNat, h⟩ s).finish .ok {} := by
  simp only [wkidOp, frameIndex?, dif_pos h]

theorem wkidOp_of_ge (h : 4 ≤ arg.toNat) : wkidOp c arg s = illegalCommand s := by
  simp only [wkidOp, frameIndex?, dif_neg (Nat.not_lt.2 h)]

theorem wknextOp_of_lt (h : s.wseq.toNat < 4) :
    wknextOp c s = { identify c ⟨s.wseq.toNat, h⟩ (template c s) with wseq := s.wseq + 1 }.finish .ok {} := by
  simp only [wknextOp, nextFrame?, dif_pos h]

theorem wknextOp_of_ge (h : 4 ≤ s.wseq.toNat) : wknextOp c s = s.finish .sequenceError {} := by
  simp only [wknextOp, nextFrame?, dif_neg (Nat.not_lt.2 h)]

theorem wkrstOp_of_lt (h : arg.toNat < 4) :
    wkrstOp arg s =
      { s with wseq := if arg.getLsbD 0 then 0 else s.wseq,
               vseq := if arg.getLsbD 1 then 0 else s.vseq }.finish .ok {} := by
  simp only [wkrstOp, restartMask?, if_pos (Nat.le_of_lt_succ h)]

theorem wkrstOp_of_ge (h : 4 ≤ arg.toNat) : wkrstOp arg s = illegalCommand s := by
  simp only [wkrstOp, restartMask?, if_neg (Nat.not_le.2 h)]

theorem cmdsealOp_of_le (h : arg.toNat ≤ 508) :
    cmdsealOp c arg s =
      (scramble c (embed c (s.fill arg.toNat (512 - arg.toNat) fun _ => 0))).finish .ok {} := by
  simp only [cmdsealOp, payloadLength?, if_neg (Nat.not_lt.2 h)]

theorem cmdsealOp_of_gt (h : 508 < arg.toNat) : cmdsealOp c arg s = s.finish .framingViolation {} := by
  simp only [cmdsealOp, payloadLength?, if_pos h]

/-- A command word runs the operation it decodes to, or is an illegal command (30_encoding R75). -/
theorem issueWith_cases (cw : Word) :
    (∃ i, issueWith c cw s = operate c i s) ∨ issueWith c cw s = illegalCommand s := by
  unfold issueWith
  split
  · exact .inl ⟨_, rfl⟩
  · exact .inr rfl

end branches

/-! ### What the branching operations leave, on every branch -/

section frames
variable (c : Config) (arg : BitVec 10) (s : State)

theorem wkidOp_frame :
    (wkidOp c arg s).ckRecv = s.ckRecv ∧ SameCounters s (wkidOp c arg s) ∧ SameHostSide s (wkidOp c arg s) := by
  obtain h | h := Nat.lt_or_ge arg.toNat 4
  · rw [wkidOp_of_lt c s h]
    exact ⟨rfl, ⟨rfl, rfl⟩, rfl, rfl, rfl⟩
  · rw [wkidOp_of_ge c s h]
    exact ⟨rfl, ⟨rfl, rfl⟩, rfl, rfl, rfl⟩

theorem wknextOp_frame :
    (wknextOp c s).ckRecv = s.ckRecv ∧ (wknextOp c s).vseq = s.vseq ∧ SameHostSide s (wknextOp c s) := by
  obtain h | h := Nat.lt_or_ge s.wseq.toNat 4
  · rw [wknextOp_of_lt c s h]
    simp [SameHostSide]
  · rw [wknextOp_of_ge c s h]
    exact ⟨rfl, rfl, rfl, rfl, rfl⟩

theorem wkrstOp_frame :
    (wkrstOp arg s).sb = s.sb ∧ SameChecksums s (wkrstOp arg s) ∧ SameHostSide s (wkrstOp arg s) := by
  obtain h | h := Nat.lt_or_ge arg.toNat 4
  · rw [wkrstOp_of_lt s h]
    exact ⟨rfl, ⟨rfl, rfl⟩, rfl, rfl, rfl⟩
  · rw [wkrstOp_of_ge s h]
    exact ⟨rfl, ⟨rfl, rfl⟩, rfl, rfl, rfl⟩

theorem cmdsealOp_frame :
    (cmdsealOp c arg s).ckRecv = s.ckRecv ∧ SameCounters s (cmdsealOp c arg s) ∧
      SameHostSide s (cmdsealOp c arg s) := by
  obtain h | h := le_or_gt arg.toNat 508
  · rw [cmdsealOp_of_le c s h]
    exact ⟨rfl, ⟨rfl, rfl⟩, rfl, rfl, rfl⟩
  · rw [cmdsealOp_of_gt c s h]
    exact ⟨rfl, ⟨rfl, rfl⟩, rfl, rfl, rfl⟩

/-- `WKNEXT` either leaves `WSEQ` or counts it up from below 4 (R28). -/
theorem wknextOp_wseq :
    (wknextOp c s).wseq = s.wseq ∨ s.wseq.toNat < 4 ∧ (wknextOp c s).wseq = s.wseq + 1 := by
  obtain h | h := Nat.lt_or_ge s.wseq.toNat 4
  · exact .inr ⟨h, congrArg State.wseq (wknextOp_of_lt c s h)⟩
  · exact .inl (by rw [wknextOp_of_ge c s h, State.finish_wseq])

/-- `WKRST m` clears `WSEQ` at most, and only with bit 0 of the mask (R28). -/
theorem wkrstOp_wseq : (wkrstOp arg s).wseq = s.wseq ∨ arg.getLsbD 0 = true ∧ (wkrstOp arg s).wseq = 0 := by
  obtain h | h := Nat.lt_or_ge arg.toNat 4
  · rw [wkrstOp_of_lt s h, State.finish_wseq]
    cases hbit : arg.getLsbD 0
    · exact .inl rfl
    · exact .inr ⟨rfl, rfl⟩
  · exact .inl (by rw [wkrstOp_of_ge s h, illegalCommand_wseq])

/-- `WKRST m` clears `VSEQ` at most, and only with bit 1 of the mask (R29). -/
theorem wkrstOp_vseq : (wkrstOp arg s).vseq = s.vseq ∨ arg.getLsbD 1 = true ∧ (wkrstOp arg s).vseq = 0 := by
  obtain h | h := Nat.lt_or_ge arg.toNat 4
  · rw [wkrstOp_of_lt s h, State.finish_vseq]
    cases hbit : arg.getLsbD 1
    · exact .inl rfl
    · exact .inr ⟨rfl, rfl⟩
  · exact .inl (by rw [wkrstOp_of_ge s h, illegalCommand_vseq])

end frames

/-! ### What every operation leaves, field by field (10_state R36) -/

section matrix
variable (c : Config) {i : Instr} (s : State)

theorem operate_sameHostSide (i : Instr) : SameHostSide s (operate c i s) := by
  cases i with
  | wkid k =>
    obtain ⟨-, -, hhost⟩ := wkidOp_frame c k s
    exact hhost
  | wknext =>
    obtain ⟨-, -, hhost⟩ := wknextOp_frame c s
    exact hhost
  | wkrst m =>
    obtain ⟨-, -, hhost⟩ := wkrstOp_frame m s
    exact hhost
  | cmdseal n =>
    obtain ⟨-, -, hhost⟩ := cmdsealOp_frame c n s
    exact hhost
  | zero | scr | ckcalc | ckembed | ckverify | wktmpl | wkchk | rspopen => exact ⟨rfl, rfl, rfl⟩

theorem operate_sameBuffer (h : keepsBuffer i = true) : SameBuffer s (operate c i s) := by
  intro a _
  cases i with
  | ckcalc | ckverify | wkchk => rfl
  | wkrst m =>
    obtain ⟨hsb, -, hdraw, -, -⟩ := wkrstOp_frame m s
    simp only [operate, State.byte, hsb, hdraw]
  | zero | scr | ckembed | wktmpl | wkid _ | wknext | cmdseal _ | rspopen => cases h

theorem operate_ckCalc (h : keepsComputed i = true) : (operate c i s).ckCalc = s.ckCalc := by
  cases i with
  | zero | scr | wktmpl => rfl
  | wkrst m =>
    obtain ⟨-, ⟨hcalc, -⟩, -⟩ := wkrstOp_frame m s
    exact hcalc
  | ckcalc | ckembed | ckverify | wkid _ | wknext | wkchk | cmdseal _ | rspopen => cases h

theorem operate_ckRecv (h : keepsReceived i = true) : (operate c i s).ckRecv = s.ckRecv := by
  cases i with
  | zero | scr | ckcalc | ckembed | wktmpl => rfl
  | wkid k => exact (wkidOp_frame c k s).1
  | wknext => exact (wknextOp_frame c s).1
  | wkrst m =>
    obtain ⟨-, ⟨-, hrecv⟩, -⟩ := wkrstOp_frame m s
    exact hrecv
  | cmdseal n => exact (cmdsealOp_frame c n s).1
  | ckverify | wkchk | rspopen => cases h

theorem operate_wseq (h : keepsWseq i = true) : (operate c i s).wseq = s.wseq := by
  cases i with
  | zero | scr | ckcalc | ckembed | ckverify | wktmpl | wkchk | rspopen => rfl
  | wkid k =>
    obtain ⟨-, ⟨hwseq, -⟩, -⟩ := wkidOp_frame c k s
    exact hwseq
  | wknext => cases h
  | wkrst m =>
    have hbit : m.getLsbD 0 = false := by simpa only [keepsWseq, Bool.not_eq_true'] using h
    obtain heq | ⟨hset, -⟩ := wkrstOp_wseq m s
    · exact heq
    · exact absurd (hbit.symm.trans hset) (by decide)
  | cmdseal n =>
    obtain ⟨-, ⟨hwseq, -⟩, -⟩ := cmdsealOp_frame c n s
    exact hwseq

theorem operate_vseq (h : keepsVseq i = true) : (operate c i s).vseq = s.vseq := by
  cases i with
  | zero | scr | ckcalc | ckembed | ckverify | wktmpl | rspopen => rfl
  | wkid k =>
    obtain ⟨-, ⟨-, hvseq⟩, -⟩ := wkidOp_frame c k s
    exact hvseq
  | wknext =>
    obtain ⟨-, hvseq, -⟩ := wknextOp_frame c s
    exact hvseq
  | wkrst m =>
    have hbit : m.getLsbD 1 = false := by simpa only [keepsVseq, Bool.not_eq_true'] using h
    obtain heq | ⟨hset, -⟩ := wkrstOp_vseq m s
    · exact heq
    · exact absurd (hbit.symm.trans hset) (by decide)
  | wkchk => cases h
  | cmdseal n =>
    obtain ⟨-, ⟨-, hvseq⟩, -⟩ := cmdsealOp_frame c n s
    exact hvseq

theorem ckembedOp_sameOutside : SameOutside 508 512 s (ckembedOp c s) := by
  intro a _ hout
  rw [ckembedOp, State.byte_finish, byte_embed, if_neg hout]

theorem wkidOp_byte_outside (k : BitVec 10) {a : Nat} (ha : a < 508) (hid : ¬(4 ≤ a ∧ a < 8)) :
    (wkidOp c k s).byte a = s.byte a := by
  obtain hk | hk := Nat.lt_or_ge k.toNat 4
  · rw [wkidOp_of_lt c s hk, State.byte_finish, byte_identify, if_neg (by omega), if_neg hid]
  · rw [wkidOp_of_ge c s hk, illegalCommand_byte]

end matrix

/-! ### STATUS after an operation (10_state R25 to R27) -/

section status
variable (c : Config) (i : Instr) (s : State)

theorem legalStatus_pack (r : Result) (f : Flags) : legalStatus (pack r f) := by
  obtain ⟨hcode, hlow, -, -, -, -, -, -, -, hhigh⟩ := pack_fields r f
  exact ⟨hlow, hhigh, hcode.trans_le r.code_le⟩

/-- The sum of R26 stays below 2^32, so nothing of it is lost in the word. -/
theorem pack_toNat (r : Result) (f : Flags) :
    (pack r f).toNat = r.code + 256 * f.ckok.toNat + 512 * f.magic.toNat + 1024 * f.idhit.toNat
      + 2048 * f.gap.toNat + 4096 * f.fill.toNat + 8192 * f.trail.toNat + 16384 * f.idx.val := by
  rw [pack, BitVec.toNat_ofNat, Nat.mod_eq_of_lt]
  have hcode := r.code_le
  have hckok := f.ckok.toNat_le
  have hmagic := f.magic.toNat_le
  have hidhit := f.idhit.toNat_le
  have hgap := f.gap.toNat_le
  have hfill := f.fill.toNat_le
  have htrail := f.trail.toNat_le
  omega

theorem wakeVerdict_result_ne_none (f : Flags) (v : BitVec 3) : (wakeVerdict f v).1 ≠ .none := by
  unfold wakeVerdict
  split_ifs <;> simp

theorem verify_status_packed : ∃ r f, (verify c s).status = pack r f ∧ r ≠ .none :=
  ⟨_, _, verify_status c s, by split <;> simp⟩

/-- Every operation ends with a result other than `NONE` (R27). -/
theorem operate_status_packed : ∃ r f, (operate c i s).status = pack r f ∧ r ≠ .none := by
  cases i with
  | zero | scr | ckcalc | ckembed | wktmpl => exact ⟨.ok, {}, rfl, by simp⟩
  | ckverify => exact verify_status_packed c s
  | rspopen => exact verify_status_packed c (scramble c s)
  | wkid k =>
    obtain hk | hk := Nat.lt_or_ge k.toNat 4
    · exact ⟨.ok, {}, congrArg State.status (wkidOp_of_lt c s hk), by simp⟩
    · exact ⟨.illegalCommand, {}, congrArg State.status (wkidOp_of_ge c s hk), by simp⟩
  | wknext =>
    obtain hw | hw := Nat.lt_or_ge s.wseq.toNat 4
    · exact ⟨.ok, {}, congrArg State.status (wknextOp_of_lt c s hw), by simp⟩
    · exact ⟨.sequenceError, {}, congrArg State.status (wknextOp_of_ge c s hw), by simp⟩
  | wkrst m =>
    obtain hm | hm := Nat.lt_or_ge m.toNat 4
    · exact ⟨.ok, {}, congrArg State.status (wkrstOp_of_lt s hm), by simp⟩
    · exact ⟨.illegalCommand, {}, congrArg State.status (wkrstOp_of_ge s hm), by simp⟩
  | wkchk => exact ⟨_, _, rfl, wakeVerdict_result_ne_none _ _⟩
  | cmdseal n =>
    obtain hn | hn := le_or_gt n.toNat 508
    · exact ⟨.ok, {}, congrArg State.status (cmdsealOp_of_le c s hn), by simp⟩
    · exact ⟨.framingViolation, {}, congrArg State.status (cmdsealOp_of_gt c s hn), by simp⟩

theorem issueWith_status_packed (cw : Word) : ∃ r f, (issueWith c cw s).status = pack r f ∧ r ≠ .none := by
  obtain ⟨i, heq⟩ | heq := issueWith_cases c s cw
  · exact heq ▸ operate_status_packed c i s
  · exact ⟨.illegalCommand, {}, congrArg State.status heq, by simp⟩

end status

/-! ### The SEQ view -/

/-- The fields of the `SEQ` view (R30). -/
theorem seq_fields (s : State) :
    s.seq.extractLsb' 0 3 = s.wseq ∧ s.seq.getLsbD 3 = false ∧ s.seq.extractLsb' 4 3 = s.vseq ∧
      (s.seq.getLsbD 7 = true ↔ s.vseq = 4) ∧ s.seq.extractLsb' 8 24 = 0 := by
  refine ⟨?_, ?_, ?_, ?_, ?_⟩
  · apply BitVec.eq_of_getLsbD_eq
    intro j hj
    simp [State.seq_getLsbD, hj]
  · rw [State.seq_getLsbD]
    rfl
  · apply BitVec.eq_of_getLsbD_eq
    intro j hj
    simp [State.seq_getLsbD, hj, show ¬ 4 + j < 3 by omega, show 4 + j < 7 by omega]
  · rw [State.seq_getLsbD]
    exact decide_eq_true_iff
  · apply BitVec.eq_of_getLsbD_eq
    intro j hj
    simp [State.seq_getLsbD, show ¬ 8 + j < 3 by omega, show ¬ 8 + j < 7 by omega]

/-! ### What an operation does not read -/

section unread
variable (c : Config) {i : Instr} (s : State)

/-- No operation reads `STATUS`, and none but `WKCHK` and `WKRST` reads or writes `VSEQ` (R26, R29). -/
theorem operate_of_status_vseq (hchk : i ≠ .wkchk) (hrst : ∀ m, i ≠ .wkrst m) (w : Word) (v : BitVec 3) :
    operate c i { s with status := w, vseq := v } = { operate c i s with vseq := v } := by
  cases i with
  | zero | scr | ckcalc | ckembed | ckverify | wktmpl | rspopen => rfl
  | wkid k =>
    obtain hk | hk := Nat.lt_or_ge k.toNat 4
    · simp only [operate, wkidOp_of_lt c _ hk]
      rfl
    · simp only [operate, wkidOp_of_ge c _ hk]
      rfl
  | wknext =>
    obtain hw | hw := Nat.lt_or_ge s.wseq.toNat 4
    · simp only [operate, wknextOp_of_lt c { s with status := w, vseq := v } hw, wknextOp_of_lt c s hw]
      rfl
    · simp only [operate, wknextOp_of_ge c { s with status := w, vseq := v } hw, wknextOp_of_ge c s hw]
      rfl
  | wkrst m => exact absurd rfl (hrst m)
  | wkchk => exact absurd rfl hchk
  | cmdseal n =>
    obtain hn | hn := le_or_gt n.toNat 508
    · simp only [operate, cmdsealOp_of_le c _ hn]
      rfl
    · simp only [operate, cmdsealOp_of_gt c _ hn]
      rfl

theorem with_vseq_self {t : State} {v : BitVec 3} (h : t.vseq = v) : { t with vseq := v } = t := by
  subst h
  rfl

theorem operate_of_status (i : Instr) (w : Word) : operate c i { s with status := w } = operate c i s := by
  cases i with
  | wkchk => rfl
  | wkrst m =>
    obtain hm | hm := Nat.lt_or_ge m.toNat 4
    · simp only [operate, wkrstOp_of_lt _ hm]
      rfl
    · simp only [operate, wkrstOp_of_ge _ hm]
      rfl
  | zero | scr | ckcalc | ckembed | ckverify | wktmpl | wkid _ | wknext | cmdseal _ | rspopen =>
    exact (operate_of_status_vseq c s (by simp) (by simp) w s.vseq).trans (with_vseq_self (operate_vseq c s rfl))

end unread

/-! ### The invariant of a step -/

section invariant
variable (c : Config) (i : Instr) {s : State}

/-- All writes to the buffer are fills inside the 512 offsets (R22). -/
theorem operate_wf (h : s.sb.wf) : (operate c i s).sb.wf := by
  cases i with
  | zero => exact State.fill_wf h (by omega) _
  | scr => exact scramble_wf h c
  | ckcalc | ckverify | wkchk => exact h
  | ckembed => exact embed_wf h c
  | wktmpl => exact template_wf h c
  | rspopen => exact scramble_wf h c
  | wkid k =>
    obtain hk | hk := Nat.lt_or_ge k.toNat 4
    · rw [operate, wkidOp_of_lt c s hk]
      exact identify_wf h c _
    · rw [operate, wkidOp_of_ge c s hk]
      exact h
  | wknext =>
    obtain hw | hw := Nat.lt_or_ge s.wseq.toNat 4
    · rw [operate, wknextOp_of_lt c s hw]
      exact identify_wf (template_wf h c) c _
    · rw [operate, wknextOp_of_ge c s hw]
      exact h
  | wkrst m =>
    rw [operate, (wkrstOp_frame m s).1]
    exact h
  | cmdseal n =>
    obtain hn | hn := le_or_gt n.toNat 508
    · rw [operate, cmdsealOp_of_le c s hn]
      exact scramble_wf (embed_wf (State.fill_wf h (by omega) _) c) c
    · rw [operate, cmdsealOp_of_gt c s hn]
      exact h

/-- `WKNEXT` counts up only from below 4, and `WKRST` only clears (R28). -/
theorem operate_wseq_le (h : s.wseq.toNat ≤ 4) : (operate c i s).wseq.toNat ≤ 4 := by
  by_cases hk : keepsWseq i = true
  · rw [operate_wseq c s hk]
    exact h
  cases i with
  | wknext =>
    obtain heq | ⟨hlt, heq⟩ := wknextOp_wseq c s
    · exact heq ▸ h
    · rw [operate, heq]
      bv_omega
  | wkrst m =>
    obtain heq | ⟨-, heq⟩ := wkrstOp_wseq m s
    · exact heq ▸ h
    · rw [operate, heq]
      decide
  | zero | scr | ckcalc | ckembed | ckverify | wktmpl | wkid _ | wkchk | cmdseal _ | rspopen => exact absurd rfl hk

/-- The tracker counts up only when it equals a frame index, hence from below 4 (R29, 43 R123). -/
theorem wakeVerdict_vseq_le (f : Flags) {v : BitVec 3} (h : v.toNat ≤ 4) : (wakeVerdict f v).2.toNat ≤ 4 := by
  have hidx := f.idx.isLt
  unfold wakeVerdict
  split_ifs with _ _ _ _ heq
  · exact h
  · decide
  · decide
  · decide
  · show (v + 1).toNat ≤ 4
    bv_omega
  · decide

theorem operate_vseq_le (h : s.vseq.toNat ≤ 4) : (operate c i s).vseq.toNat ≤ 4 := by
  by_cases hk : keepsVseq i = true
  · rw [operate_vseq c s hk]
    exact h
  cases i with
  | wkchk => exact wakeVerdict_vseq_le _ h
  | wkrst m =>
    obtain heq | ⟨-, heq⟩ := wkrstOp_vseq m s
    · exact heq ▸ h
    · rw [operate, heq]
      decide
  | zero | scr | ckcalc | ckembed | ckverify | wktmpl | wkid _ | wknext | cmdseal _ | rspopen => exact absurd rfl hk

/-- A command word, legal or not, keeps the states the spec allows. -/
theorem issueWith_inv (cw : Word) (h : s.Inv) : (issueWith c cw s).Inv := by
  obtain ⟨hwf, -, hwseq, hvseq⟩ := h
  obtain ⟨r, f, hstatus, -⟩ := issueWith_status_packed c s cw
  have hlegal : legalStatus (issueWith c cw s).status := hstatus ▸ legalStatus_pack r f
  obtain ⟨i, heq⟩ | heq := issueWith_cases c s cw
  · rw [heq] at hlegal ⊢
    exact ⟨operate_wf c i hwf, hlegal, operate_wseq_le c i hwseq, operate_vseq_le c i hvseq⟩
  · rw [heq] at hlegal ⊢
    exact ⟨hwf, hlegal, hwseq, hvseq⟩

theorem reset_inv : State.reset.Inv := ⟨Memory.wf_nil, by decide, by decide, by decide⟩

/-- Every host action keeps the states the spec allows. -/
theorem performWith_inv (a : HostAction) (h : s.Inv) : (performWith c a s).Inv := by
  cases a with
  | bufWrite8 a v => exact ⟨State.setByte_wf h.1 a.isLt v, h.2⟩
  | bufWrite32 i w => exact ⟨State.setWord_wf h.1 i.isLt w, h.2⟩
  | bufRead8 _ | bufRead32 _ | regRead _ => exact h
  | issue cw => exact issueWith_inv c cw h
  | reset => exact reset_inv

end invariant

/-! ### The statements -/

/-- Settles O16: the first action of the list keeps the invariant, and so does doing nothing. -/
theorem stepKeepsInvariant : Obligations.StepKeepsInvariant := by
  intro s t hs hstep
  unfold step at hstep
  split at hstep
  · cases hstep
    exact hs
  · rw [perform_eq_performWith] at hstep
    cases hstep
    exact performWith_inv _ _ hs

/-- Settles O18: no operation reads `STATUS`, each ends in a packed result, and no other port writes it. -/
theorem everyIssueRewritesStatus : Obligations.EveryIssueRewritesStatus := by
  refine ⟨fun cw w s => ?_, fun cw s => ?_, pack_toNat, fun a s hissue hreset => ?_⟩
  · simp only [issue_eq_issueWith, issueWith, operate_of_status]
    rfl
  · obtain ⟨r, f, hstatus, hr⟩ := issueWith_status_packed Config.hardware s cw
    exact ⟨_, r, f, issue_eq_issueWith cw s, hstatus, hr, hstatus ▸ legalStatus_pack r f⟩
  · cases a with
    | bufWrite8 _ _ | bufRead8 _ | bufWrite32 _ _ | bufRead32 _ | regRead _ => exact ⟨_, rfl, rfl⟩
    | issue cw => exact absurd rfl (hissue cw)
    | reset => exact absurd rfl hreset

/-- Settles O19, from the field lemmas. -/
theorem operationsKeepTheWriteMatrix : Obligations.OperationsKeepTheWriteMatrix := by
  intro i s
  refine ⟨_, exec_eq_operate i s, operate_sameBuffer _ s, operate_ckCalc _ s, operate_ckRecv _ s, operate_wseq _ s,
    operate_vseq _ s, ?_, ?_, operate_sameHostSide _ s i⟩
  · rintro rfl
    exact ckembedOp_sameOutside _ s
  · rintro k rfl a ha hid
    exact wkidOp_byte_outside _ s k ha hid

/-- Settles O20: `VSEQ` passes through unread. -/
theorem awakeGatesNothing : Obligations.AwakeGatesNothing := by
  intro i s v hchk hrst
  have hrun := operate_of_status_vseq Config.hardware s hchk hrst s.status v
  exact ⟨_, exec_eq_operate i s, (exec_eq_operate ..).trans (congrArg _ hrun)⟩

/-- Settles O13, by the fields of the `SEQ` view. -/
theorem regReadReturnsRegister : Obligations.RegReadReturnsRegister :=
  fun s => ⟨rfl, rfl, rfl, s.seq, rfl, seq_fields s⟩

/-- Settles O14, by evaluation of the reset state. -/
theorem resetStateValues : Obligations.ResetStateValues :=
  ⟨rfl, rfl, rfl, rfl, rfl, rfl, fun _ => rfl⟩

/-- Settles O15, by evaluation of the action. -/
theorem resetActionClearsRegisters : Obligations.ResetActionClearsRegisters :=
  fun s => ⟨resetBlock s, rfl, rfl, rfl, rfl, rfl, rfl, fun _ => rfl, rfl, rfl, rfl⟩

/-- Settles O17, with the canonical form of the empty buffer. -/
theorem resetHasInvariant : Obligations.ResetHasInvariant := reset_inv

end Sys2Proof.Proofs.StateLaws
end

section
/-! PROOFS, family 20_memory. The buffer ports, byte by byte and word by word (20_memory R52 to R55); operations issued twice
(R59); then the theorems that settle the family's statements. -/

namespace Sys2Proof.Proofs.MemoryLaws
open Sys2Proof.Machine Sys2Proof.Claims Sys2Proof.Proofs.StateLaws

/-! ### The buffer ports -/

section ports
variable (s : State)

/-- A write to the buffer writes nothing else. -/
theorem fill_sameButBuffer (lo n : Nat) (f : Nat → Byte) : SameButBuffer s (s.fill lo n f) :=
  ⟨rfl, ⟨rfl, rfl⟩, ⟨rfl, rfl⟩, rfl, rfl, rfl⟩

theorem fill_sameOutside (lo n : Nat) (f : Nat → Byte) : SameOutside lo (lo + n) s (s.fill lo n f) :=
  fun a _ hout => by rw [State.byte_fill, if_neg hout]

theorem byte_bufWrite8 (a : BitVec 9) (v : Byte) (b : Nat) :
    (bufWrite8 a v s).byte b = if b = a.toNat then v else s.byte b :=
  State.byte_setByte ..

/-- The byte at offset `4i + j` of the buffer after `SBW[i] <- w` (R52). -/
theorem byte_setWord_add (i : Nat) (w : Word) {j : Nat} (hj : j < 4) :
    (s.setWord i w).byte (4 * i + j) = byteOf w j := by
  rw [State.byte_setWord, if_pos (by omega), Nat.add_sub_cancel_left]

/-- The offset of every byte of a word fits the 9 bits of the byte port (R58). -/
theorem toNat_byteOffset (i : BitVec 7) {j : Nat} (hj : j < 4) :
    (BitVec.ofNat 9 (4 * i.toNat + j)).toNat = 4 * i.toNat + j := by
  rw [BitVec.toNat_ofNat, Nat.mod_eq_of_lt (by omega)]

/-- `BufWrite32` leaves the bytes that four `BufWrite8` leave (R55). -/
theorem byte_bufWrite32_eq_four (i : BitVec 7) (w : Word) (a : Nat) :
    (bufWrite32 i w s).byte a =
      (bufWrite8 (BitVec.ofNat 9 (4 * i.toNat + 3)) (byteOf w 3)
        (bufWrite8 (BitVec.ofNat 9 (4 * i.toNat + 2)) (byteOf w 2)
          (bufWrite8 (BitVec.ofNat 9 (4 * i.toNat + 1)) (byteOf w 1)
            (bufWrite8 (BitVec.ofNat 9 (4 * i.toNat + 0)) (byteOf w 0) s)))).byte a := by
  simp only [byte_bufWrite8, toNat_byteOffset i (by decide : 0 < 4), toNat_byteOffset i (by decide : 1 < 4),
    toNat_byteOffset i (by decide : 2 < 4), toNat_byteOffset i (by decide : 3 < 4)]
  by_cases hin : 4 * i.toNat ≤ a ∧ a < 4 * i.toNat + 4
  · obtain ⟨j, rfl⟩ := Nat.exists_eq_add_of_le hin.1
    have hj : j < 4 := by omega
    rw [bufWrite32, byte_setWord_add s _ w hj]
    interval_cases j <;> simp
  · rw [bufWrite32, State.byte_setWord, if_neg hin, if_neg (by omega), if_neg (by omega), if_neg (by omega),
      if_neg (by omega)]

end ports

/-! ### Operations issued twice -/

/-- The two states read alike, field by field and byte by byte. -/
def SameState (s t : State) : Prop := SameBuffer s t ∧ SameButBuffer s t

theorem SameState.of_eq {s t : State} (h : t = s) : SameState s t := by
  subst h
  exact ⟨fun _ _ => rfl, rfl, ⟨rfl, rfl⟩, ⟨rfl, rfl⟩, rfl, rfl, rfl⟩

section twice
variable (c : Config) (s : State)

/-- An embed reads no `STATUS`. -/
theorem embed_finish (r : Result) (g : Flags) : embed c (s.finish r g) = (embed c s).finish r g := rfl

theorem identify_finish (k : Fin 4) (r : Result) (g : Flags) :
    identify c k (s.finish r g) = (identify c k s).finish r g := rfl

theorem byte_zeroOp {a : Nat} (ha : a < 512) : (zeroOp s).byte a = 0 := by
  rw [zeroOp, State.byte_finish, State.byte_fill, if_pos (by omega)]

/-- A second identifier write finds the payload that the first one left, hence the same checksum (42 R111). -/
theorem checksum_writeId_identify (k : Fin 4) :
    checksum c (writeId c k (identify c k s)) = checksum c (writeId c k s) := by
  refine checksum_congr c fun a ha => ?_
  rw [byte_writeId, byte_writeId, byte_identify, if_neg (by omega : ¬(508 ≤ a ∧ a < 512))]
  split <;> rfl

theorem byte_identify_identify (k : Fin 4) (a : Nat) :
    (identify c k (identify c k s)).byte a = (identify c k s).byte a := by
  simp only [byte_identify, checksum_writeId_identify]
  split_ifs <;> rfl

theorem byte_embed_embed (a : Nat) : (embed c (embed c s)).byte a = (embed c s).byte a := by
  simp only [byte_embed, checksum_embed]
  split <;> rfl

theorem zeroOp_twice : SameState (zeroOp s) (zeroOp (zeroOp s)) := by
  refine ⟨fun a ha => ?_, ?_⟩
  · rw [byte_zeroOp _ ha, byte_zeroOp _ ha]
  · simp [zeroOp, SameButBuffer, SameChecksums, SameCounters, SameHostSide]

/-- The template's bytes are the configuration's, whatever the buffer held (42 R110). -/
theorem wktmplOp_twice : SameState (wktmplOp c s) (wktmplOp c (wktmplOp c s)) := by
  refine ⟨fun a ha => ?_, ?_⟩
  · simp only [wktmplOp, State.byte_finish, byte_template c _ ha]
  · simp [wktmplOp, SameButBuffer, SameChecksums, SameCounters, SameHostSide]

theorem ckembedOp_twice : SameState (ckembedOp c s) (ckembedOp c (ckembedOp c s)) := by
  simp only [ckembedOp, embed_finish]
  refine ⟨fun a _ => ?_, ?_⟩
  · simp only [State.byte_finish, byte_embed_embed]
  · simp [SameButBuffer, SameChecksums, SameCounters, SameHostSide]

theorem wkidOp_twice (k : BitVec 10) : SameState (wkidOp c k s) (wkidOp c k (wkidOp c k s)) := by
  obtain hk | hk := Nat.lt_or_ge k.toNat 4
  · simp only [wkidOp_of_lt c _ hk, identify_finish]
    refine ⟨fun a _ => ?_, ?_⟩
    · simp only [State.byte_finish, byte_identify_identify]
    · simp [SameButBuffer, SameChecksums, SameCounters, SameHostSide, checksum_writeId_identify]
  · simp only [wkidOp_of_ge c _ hk]
    exact .of_eq rfl

/-- A counter that the mask selects is 0 already; one that it does not is left (42 R115). -/
theorem wkrstOp_wkrstOp (m : BitVec 10) : wkrstOp m (wkrstOp m s) = wkrstOp m s := by
  obtain hm | hm := Nat.lt_or_ge m.toNat 4
  · simp only [wkrstOp_of_lt _ hm]
    cases m.getLsbD 0 <;> cases m.getLsbD 1 <;> rfl
  · simp only [wkrstOp_of_ge _ hm]
    rfl

/-- Every operation that R59 calls idempotent is, under every configuration. `CKCALC` and `CKVERIFY` write nothing that they
read. -/
theorem operate_twice {i : Instr} (h : idempotent i = true) :
    SameState (operate c i s) (operate c i (operate c i s)) := by
  cases i with
  | zero => exact zeroOp_twice s
  | wktmpl => exact wktmplOp_twice c s
  | ckcalc | ckverify => exact .of_eq rfl
  | ckembed => exact ckembedOp_twice c s
  | wkid k => exact wkidOp_twice c s k
  | wkrst m => exact .of_eq (wkrstOp_wkrstOp s m)
  | scr | wknext | wkchk | cmdseal _ | rspopen => cases h

end twice

/-! ### The statements -/

/-- Settles O12, from the bytes of a written word, and of a word read. -/
theorem wordPortIsFourBytePorts : Obligations.WordPortIsFourBytePorts := by
  intro i w s
  refine ⟨bufWrite32 i w s, rfl, fun j => byte_setWord_add s i.toNat w j.isLt, fill_sameOutside s _ _ _, fill_sameButBuffer ..,
    fun a _ => byte_bufWrite32_eq_four s i w a, ?_, s.word i.toNat, rfl,
    fun j => byteOf_wordOfBytes s.byte i.toNat j.isLt⟩
  have hread : bufRead32 i (bufWrite32 i w s) = w := State.word_setWord_same s i.toNat w
  simp only [perform, hread]
  rfl

/-- Settles O21, one operation at a time. -/
theorem idempotentOperations : Obligations.IdempotentOperations := by
  intro i s h
  obtain ⟨hbuffer, hrest⟩ := operate_twice Config.hardware s h
  exact ⟨_, _, exec_eq_operate i s, exec_eq_operate i _, hbuffer, hrest⟩

/-- Settles O6: the first action of the list is performed, and an `Issue` is read by the decoder. -/
theorem stepRunsDecodedOperation : Obligations.StepRunsDecodedOperation := by
  have hstep : ∀ (s : State) (a : HostAction) (rest : List HostAction),
      s.inbox = a :: rest → step s = perform a { s with inbox := rest } := by
    intro s a rest hinbox
    simp only [step, hinbox]
  refine ⟨fun s cw i rest hinbox hdecode => ?_, fun s cw e rest hinbox hdecode => ?_, hstep⟩
  · rw [hstep s _ rest hinbox]
    simp only [perform, issue, hdecode]
  · rw [hstep s _ rest hinbox]
    simp only [perform, issue, hdecode, illegalCommand_spec]

/-- Settles O10, from what a one-byte fill writes and leaves. -/
theorem bufWrite8WritesOneByte : Obligations.BufWrite8WritesOneByte :=
  fun a v s => ⟨bufWrite8 a v s, rfl, (byte_bufWrite8 s a v a.toNat).trans (if_pos rfl), fill_sameOutside s _ _ _,
    fill_sameButBuffer ..⟩

/-- Settles O11, by evaluation of the port. -/
theorem bufRead8ReturnsByte : Obligations.BufRead8ReturnsByte := fun _ _ => rfl

end Sys2Proof.Proofs.MemoryLaws
end

section
/-! PROOFS, family 30_encoding. The four fields of a command word (30_encoding R71); the operands each operation takes
(R72); the decoder and the match and mask table, both in terms of fields and operands (R73, R74); then the theorems that
settle the family's statements. -/

namespace Sys2Proof.Proofs.EncodingLaws
open Sys2Proof.Machine Sys2Proof.Claims Sys2Proof.Proofs.StateLaws

/-! ### The fields of a command word (R71) -/

section fields
variable (x y cw : Word) (i : Instr)

theorem toNat_fields :
    (fieldOp cw).toNat = cw.toNat % 256 ∧ (fieldRsv0 cw).toNat = cw.toNat / 256 % 256 ∧
      (fieldArg cw).toNat = cw.toNat / 65536 % 1024 ∧ (fieldRsv1 cw).toNat = cw.toNat / 67108864 % 64 := by
  simp [fieldOp, fieldRsv0, fieldArg, fieldRsv1, BitVec.extractLsb'_toNat, Nat.shiftRight_eq_div_pow]

/-- The fields cover the word. -/
theorem toNat_eq_sum_fields :
    cw.toNat = (fieldOp cw).toNat + 256 * (fieldRsv0 cw).toNat + 65536 * (fieldArg cw).toNat +
      67108864 * (fieldRsv1 cw).toNat := by
  obtain ⟨hop, hrsv0, harg, hrsv1⟩ := toNat_fields cw
  have hlt := cw.isLt
  omega

theorem word_eq_iff_fields :
    x = y ↔ fieldOp x = fieldOp y ∧ fieldRsv0 x = fieldRsv0 y ∧ fieldArg x = fieldArg y ∧ fieldRsv1 x = fieldRsv1 y := by
  refine ⟨by rintro rfl; exact ⟨rfl, rfl, rfl, rfl⟩, fun ⟨hop, hrsv0, harg, hrsv1⟩ => BitVec.eq_of_toNat_eq ?_⟩
  rw [toNat_eq_sum_fields x, toNat_eq_sum_fields y, hop, hrsv0, harg, hrsv1]

@[simp] theorem fieldOp_encode : fieldOp (encode i) = i.op := BitVec.extractLsb'_append_eq_right

@[simp] theorem fieldRsv0_encode : fieldRsv0 (encode i) = 0 :=
  (BitVec.extractLsb'_append_eq_of_le (by decide)).trans BitVec.extractLsb'_append_eq_right

@[simp] theorem fieldArg_encode : fieldArg (encode i) = i.arg :=
  calc fieldArg (encode i)
    _ = ((0 : BitVec 6) ++ i.arg ++ (0 : BitVec 8)).extractLsb' 8 10 := BitVec.extractLsb'_append_eq_of_le (by decide)
    _ = ((0 : BitVec 6) ++ i.arg).extractLsb' 0 10 := BitVec.extractLsb'_append_eq_of_le (by decide)
    _ = i.arg := BitVec.extractLsb'_append_eq_right

@[simp] theorem fieldRsv1_encode : fieldRsv1 (encode i) = 0 :=
  calc fieldRsv1 (encode i)
    _ = ((0 : BitVec 6) ++ i.arg ++ (0 : BitVec 8)).extractLsb' 18 6 := BitVec.extractLsb'_append_eq_of_le (by decide)
    _ = ((0 : BitVec 6) ++ i.arg).extractLsb' 10 6 := BitVec.extractLsb'_append_eq_of_le (by decide)
    _ = 0 := BitVec.extractLsb'_append_eq_left

theorem encode_eq_iff :
    encode i = cw ↔ fieldRsv0 cw = 0 ∧ fieldRsv1 cw = 0 ∧ i.op = fieldOp cw ∧ i.arg = fieldArg cw := by
  rw [word_eq_iff_fields, fieldOp_encode, fieldRsv0_encode, fieldArg_encode, fieldRsv1_encode, eq_comm (a := 0),
    eq_comm (a := 0)]
  tauto

end fields

/-! ### The operands an operation takes, and the words it stands for (R72, R73) -/

/-- The operand may stand in `ARG` with the operation's code. -/
def Admits : Instr → BitVec 10 → Prop
  | .wkid _, a | .wkrst _, a => a.toNat ≤ 3
  | .cmdseal _, _ => True
  | .zero, a | .scr, a | .ckcalc, a | .ckembed, a | .ckverify, a | .wktmpl, a | .wknext, a | .wkchk, a | .rspopen, a =>
    a = 0

/-- The word is a word of the operation with some legal operand, not with the operand of the term. -/
def Matches (i : Instr) (cw : Word) : Prop :=
  fieldRsv0 cw = 0 ∧ fieldRsv1 cw = 0 ∧ i.op = fieldOp cw ∧ Admits i (fieldArg cw)

/-- The operation with the operand replaced, where it has one. -/
def withOperand (a : BitVec 10) : Instr → Instr
  | .wkid _    => .wkid a
  | .wkrst _   => .wkrst a
  | .cmdseal _ => .cmdseal a
  | i => i

/-- The operations in the order of the table of R73, those with an operand at operand 0. -/
def operations : List Instr :=
  [.zero, .scr, .ckcalc, .ckembed, .ckverify, .wktmpl, .wkid 0, .wknext, .wkrst 0, .wkchk, .cmdseal 0, .rspopen]

section operands
variable (i : Instr) {a : BitVec 10}

theorem wf_iff_admits_arg : i.wf = true ↔ Admits i i.arg := by
  cases i <;> simp [Instr.wf, Admits, Instr.arg]

@[simp] theorem withOperand_arg_self : withOperand i.arg i = i := by
  cases i <;> rfl

@[simp] theorem withOperand_op : (withOperand a i).op = i.op := by
  cases i <;> rfl

@[simp] theorem withOperand_row : (withOperand a i).row = i.row := by
  cases i <;> rfl

@[simp] theorem admits_withOperand : Admits (withOperand a i) = Admits i := by
  cases i <;> rfl

theorem withOperand_arg (h : Admits i a) : (withOperand a i).arg = a := by
  cases i with
  | wkid _ | wkrst _ | cmdseal _ => rfl
  | zero | scr | ckcalc | ckembed | ckverify | wktmpl | wknext | wkchk | rspopen => exact h.symm

theorem withOperand_zero_mem : withOperand 0 i ∈ operations := by
  cases i <;> simp [withOperand, operations]

theorem op_mem : i.op ∈ operations.map Instr.op :=
  List.mem_map.2 ⟨withOperand 0 i, withOperand_zero_mem i, withOperand_op i⟩

theorem matches_withOperand {cw : Word} (h : Matches i cw) : Matches (withOperand a i) cw := by
  simpa [Matches] using h

theorem matches_encode (h : i.wf = true) : Matches i (encode i) := by
  simpa [Matches] using (wf_iff_admits_arg i).1 h

end operands

/-! ### The decoder (R74) -/

section decoder
variable {i : Instr} {a : BitVec 10} {op : BitVec 8} {cw : Word}

theorem decodeOp_op_of_admits (h : Admits i a) : decodeOp i.op a = .ok (withOperand a i) := by
  cases i with
  | cmdseal _ => rfl
  | zero | scr | ckcalc | ckembed | ckverify | wktmpl | wkid _ | wknext | wkrst _ | wkchk | rspopen => exact if_pos h

theorem decodeOp_op_of_not_admits (h : ¬ Admits i a) : ∃ e, decodeOp i.op a = .error e := by
  cases i with
  | cmdseal _ => exact absurd trivial h
  | zero | scr | ckcalc | ckembed | ckverify | wktmpl | wkid _ | wknext | wkrst _ | wkchk | rspopen =>
    exact ⟨_, if_neg h⟩

theorem decodeOp_unknown (h : op ∉ operations.map Instr.op) : decodeOp op a = .error .unknownOp := by
  have hnat : op.toNat ∉ (operations.map Instr.op).map BitVec.toNat :=
    mt (List.mem_map_of_injective BitVec.toNat_injective).1 h
  unfold decodeOp
  split
  case h_13 => rfl
  all_goals
    rename_i hop
    rw [hop] at hnat
    exact absurd (by decide) hnat

theorem decode_of_reserved_zero (h0 : fieldRsv0 cw = 0) (h1 : fieldRsv1 cw = 0) :
    decode cw = decodeOp (fieldOp cw) (fieldArg cw) :=
  if_neg fun h => h.elim (· h0) (· h1)

theorem decode_of_matches (h : Matches i cw) : decode cw = .ok (withOperand (fieldArg cw) i) := by
  obtain ⟨h0, h1, hop, hadmits⟩ := h
  rw [decode_of_reserved_zero h0 h1, ← hop, decodeOp_op_of_admits hadmits]

/-- A word of no operation is rejected: a reserved bit is set, or the code is unknown, or its operand is not admitted. -/
theorem decode_error_of_no_match (h : ∀ i, ¬ Matches i cw) : ∃ e, decode cw = .error e := by
  by_cases hrsv : fieldRsv0 cw ≠ 0 ∨ fieldRsv1 cw ≠ 0
  · exact ⟨_, if_pos hrsv⟩
  obtain ⟨h0, h1⟩ : fieldRsv0 cw = 0 ∧ fieldRsv1 cw = 0 := by simpa using hrsv
  rw [decode_of_reserved_zero h0 h1]
  by_cases hop : fieldOp cw ∈ operations.map Instr.op
  · obtain ⟨i, -, hi⟩ := List.mem_map.1 hop
    rw [← hi]
    exact decodeOp_op_of_not_admits fun hadmits => h i ⟨h0, h1, hi, hadmits⟩
  · exact ⟨_, decodeOp_unknown hop⟩

theorem decode_eq_error_iff : (∃ e, decode cw = .error e) ↔ ∀ i, ¬ Matches i cw := by
  refine ⟨fun ⟨e, he⟩ i hi => ?_, decode_error_of_no_match⟩
  cases he.symm.trans (decode_of_matches hi)

theorem decode_eq_ok_iff : decode cw = .ok i ↔ Matches i cw ∧ i.arg = fieldArg cw := by
  constructor
  · intro h
    obtain ⟨j, hj⟩ : ∃ j, Matches j cw := by
      by_contra hnone
      obtain ⟨e, he⟩ := decode_error_of_no_match (not_exists.1 hnone)
      cases he.symm.trans h
    obtain rfl : withOperand (fieldArg cw) j = i := Except.ok.inj ((decode_of_matches hj).symm.trans h)
    obtain ⟨-, -, -, hadmits⟩ := id hj
    exact ⟨matches_withOperand j hj, withOperand_arg j hadmits⟩
  · rintro ⟨hmatches, harg⟩
    rw [decode_of_matches hmatches, ← harg, withOperand_arg_self]

/-- An illegal operand, as R75 lists it. -/
theorem not_admits_iff :
    ¬ Admits i a ↔
      (i.op ∈ ([0x01, 0x02, 0x10, 0x11, 0x12, 0x20, 0x22, 0x28, 0x31] : List (BitVec 8)) ∧ a ≠ 0) ∨
        (i.op ∈ ([0x21, 0x23] : List (BitVec 8)) ∧ 3 < a.toNat) := by
  cases i <;> simp [Instr.op, Admits]

theorem illegalSet_iff : IllegalSet cw ↔ ∀ i, ¬ Matches i cw := by
  constructor
  · rintro hillegal i ⟨h0, h1, hop, hadmits⟩
    obtain h | h | h | h := hillegal
    · exact h h0
    · exact h h1
    · exact h (hop ▸ op_mem i)
    · exact not_admits_iff.2 (hop ▸ h) hadmits
  · intro hnone
    by_contra hlegal
    simp only [IllegalSet, not_or, not_not] at hlegal
    obtain ⟨h0, h1, hop, harg⟩ := hlegal
    obtain ⟨i, -, hi⟩ := List.mem_map.1 (show fieldOp cw ∈ operations.map Instr.op from hop)
    refine hnone i ⟨h0, h1, hi, ?_⟩
    by_contra hadmits
    exact not_or.2 harg (hi ▸ not_admits_iff.1 hadmits)

/-- A term with an operand out of range has an illegal word (R74). -/
theorem decode_encode_of_not_wf (h : ¬ i.wf = true) : ∃ e, decode (encode i) = .error e := by
  rw [decode_of_reserved_zero (fieldRsv0_encode i) (fieldRsv1_encode i), fieldOp_encode, fieldArg_encode]
  exact decodeOp_op_of_not_admits (mt (wf_iff_admits_arg i).2 h)

theorem issue_of_error (s : State) (h : ∃ e, decode cw = .error e) : issue cw s = .next { s with status := 4 } := by
  obtain ⟨e, he⟩ := h
  simp only [issue, he, illegalCommand_spec]

end decoder

/-! ### The match and mask table, field by field (R73) -/

section table
variable (i : Instr) (a : BitVec 10) (cw : Word) (r : OpcodeRow)

theorem selects_iff_fields :
    r.selects cw = true ↔
      fieldOp cw &&& fieldOp r.mask = fieldOp r.value ∧ fieldRsv0 cw &&& fieldRsv0 r.mask = fieldRsv0 r.value ∧
      fieldArg cw &&& fieldArg r.mask = fieldArg r.value ∧ fieldRsv1 cw &&& fieldRsv1 r.mask = fieldRsv1 r.value := by
  rw [OpcodeRow.selects, decide_eq_true_iff, word_eq_iff_fields]
  simp only [fieldOp, fieldRsv0, fieldArg, fieldRsv1, BitVec.extractLsb'_and]

/-- Every row compares all but the operand bits, and its value is the operation's code alone. -/
theorem row_fields : ∀ i ∈ operations,
    fieldOp i.row.mask = BitVec.allOnes 8 ∧ fieldRsv0 i.row.mask = BitVec.allOnes 8 ∧
      fieldRsv1 i.row.mask = BitVec.allOnes 6 ∧ fieldOp i.row.value = i.op ∧ fieldRsv0 i.row.value = 0 ∧
      fieldArg i.row.value = 0 ∧ fieldRsv1 i.row.value = 0 := by decide

/-- An operand whose bits above the low two are 0 is 0..3. -/
theorem and_0x3FC_eq_zero_iff : a &&& 0x3FC = 0 ↔ a.toNat ≤ 3 := by
  decide +revert

/-- The operand bits a row does not compare are those the operation uses. -/
theorem and_row_mask_eq_zero_iff : a &&& fieldArg i.row.mask = 0 ↔ Admits i a := by
  cases i with
  | cmdseal _ =>
    have hmask : fieldArg 0xFC00FFFF = 0 := by decide
    exact iff_of_true ((congrArg (a &&& ·) hmask).trans BitVec.and_zero) trivial
  | wkid _ | wkrst _ =>
    have hmask : fieldArg 0xFFFCFFFF = 0x3FC := by decide
    exact (Eq.congr_left (congrArg (a &&& ·) hmask)).trans (and_0x3FC_eq_zero_iff a)
  | zero | scr | ckcalc | ckembed | ckverify | wktmpl | wknext | wkchk | rspopen =>
    exact Eq.congr_left BitVec.and_allOnes

theorem row_selects_iff : i.row.selects cw = true ↔ Matches i cw := by
  have hfields := row_fields _ (withOperand_zero_mem i)
  simp only [withOperand_row, withOperand_op] at hfields
  obtain ⟨hmaskOp, hmask0, hmask1, hop, h0, harg, h1⟩ := hfields
  rw [selects_iff_fields, hmaskOp, hmask0, hmask1, hop, h0, harg, h1, and_row_mask_eq_zero_iff]
  simp only [BitVec.and_allOnes, Matches, eq_comm (a := i.op)]
  tauto

theorem opcodeTable_eq_map_row : opcodeTable = operations.map Instr.row := rfl

theorem row_mem_opcodeTable : i.row ∈ opcodeTable :=
  List.mem_map.2 ⟨withOperand 0 i, withOperand_zero_mem i, withOperand_row i⟩

theorem no_row_selects_iff : (∀ r ∈ opcodeTable, r.selects cw = false) ↔ ∀ i, ¬ Matches i cw := by
  simp only [← row_selects_iff, Bool.not_eq_true]
  constructor
  · exact fun h i => h i.row (row_mem_opcodeTable i)
  · intro h r hr
    obtain ⟨i, -, rfl⟩ := List.mem_map.1 (opcodeTable_eq_map_row ▸ hr)
    exact h i

end table

/-! ### The statements -/

/-- Settles O1: the word of a well-formed operation is a word of it and carries its operand. -/
theorem decodeOfEncode : Obligations.DecodeOfEncode :=
  fun i hwf => decode_eq_ok_iff.2 ⟨matches_encode i hwf, (fieldArg_encode i).symm⟩

/-- Settles O3: a row of the table selects exactly the words of its operation, and those are the words decoded to it. -/
theorem decodeIsTheOpcodeTable : Obligations.DecodeIsTheOpcodeTable :=
  ⟨fun cw i => decode_eq_ok_iff.trans (and_congr_left' (row_selects_iff i cw).symm),
    fun cw => decode_eq_error_iff.trans (no_row_selects_iff cw).symm⟩

/-- Settles O2: a decoded word has the fields of the operation's own word. -/
theorem legalWordIsOpPlusArg : Obligations.LegalWordIsOpPlusArg := by
  intro cw i hdecode
  obtain ⟨⟨h0, h1, hop, hadmits⟩, harg⟩ := decode_eq_ok_iff.1 hdecode
  refine ⟨(wf_iff_admits_arg i).2 (harg ▸ hadmits), (encode_eq_iff cw i).2 ⟨h0, h1, hop, harg⟩, ?_⟩
  rw [toNat_eq_sum_fields cw, h0, h1, hop, harg]
  rfl

/-- Settles O4: a word selects a row only with the code of the row's operation in `OP`, and the codes differ. -/
theorem opcodeRowsExclusive : Obligations.OpcodeRowsExclusive := by
  have hcodes : operations.Pairwise fun i j => i.op ≠ j.op := by decide
  refine List.pairwise_map.2 (hcodes.imp ?_)
  rintro i j hne cw ⟨hi, hj⟩
  obtain ⟨-, -, hopi, -⟩ := (row_selects_iff i cw).1 hi
  obtain ⟨-, -, hopj, -⟩ := (row_selects_iff j cw).1 hj
  exact hne (hopi.trans hopj.symm)

/-- Settles O7: the illegal set is the words of no operation, which are the words the decoder rejects. -/
theorem illegalWordOnlySetsStatus : Obligations.IllegalWordOnlySetsStatus :=
  have hset : ∀ cw : Word, IllegalSet cw ↔ ∃ e, decode cw = .error e :=
    fun _ => illegalSet_iff.trans decode_eq_error_iff.symm
  ⟨fun s cw h => issue_of_error s ((hset cw).1 h), hset⟩

/-- Settles O5, by evaluation of the decoder. -/
theorem decodeWrittenWords : Obligations.DecodeWrittenWords := by
  unfold Obligations.DecodeWrittenWords
  decide

/-- Settles O37: both the term and its word end as an illegal command. -/
theorem operandAboveThreeIsIllegalCommand : Obligations.OperandAboveThreeIsIllegalCommand := by
  intro x s hx
  have hwkid : exec (.wkid x) s = .next { s with status := 4 } :=
    congrArg Host.Outcome.next (wkidOp_of_ge Config.hardware s hx)
  have hwkrst : exec (.wkrst x) s = .next { s with status := 4 } :=
    congrArg Host.Outcome.next (wkrstOp_of_ge s hx)
  have hissue : ∀ i : Instr, ¬ i.wf = true → issue (encode i) s = .next { s with status := 4 } :=
    fun _ hwf => issue_of_error s (decode_encode_of_not_wf hwf)
  have hwf : ¬ decide (x.toNat ≤ 3) = true := by simpa using hx
  exact ⟨hwkid, hwkrst, hwkid.trans (hissue (.wkid x) hwf).symm, hwkrst.trans (hissue (.wkrst x) hwf).symm⟩

end Sys2Proof.Proofs.EncodingLaws
end

section
/-! PROOFS, family 40_buffer_scrambler. What `SCR` does to each byte and each word of the buffer, and what rewriting the whole
buffer leaves (R90, R91); then the theorems that settle the family's statements. -/

namespace Sys2Proof.Proofs.ScramblerLaws
open Sys2Proof.Machine Sys2Proof.Claims Sys2Proof.Proofs.MemoryLaws

/-! ### A buffer rewritten as a whole -/

section rewrite
variable (s : State) (f : Nat → Byte)

theorem fill_holds : Holds (s.fill 0 512 f) f :=
  fun a ha => by rw [State.byte_fill, if_pos (by omega)]

/-- What `ZERO` and `SCR` do outside the buffer: both rewrite it as a whole and end with `OK`, no flag (R90, R91). -/
theorem fill_finish_ok_frame :
    ((s.fill 0 512 f).finish .ok {}).status = 0x00000001 ∧ SameChecksums s ((s.fill 0 512 f).finish .ok {}) ∧
    SameCounters s ((s.fill 0 512 f).finish .ok {}) ∧ SameHostSide s ((s.fill 0 512 f).finish .ok {}) :=
  ⟨rfl, ⟨rfl, rfl⟩, ⟨rfl, rfl⟩, rfl, rfl, rfl⟩

variable {s}

/-- Every word of an all-zero buffer is 0 (R52). -/
theorem word_eq_zero_of_holds (h : Holds s fun _ => 0) (i : Fin 128) : s.word i = 0 := by
  calc s.word i
      = wordOfBytes (fun _ => 0) i := wordOfBytes_congr fun j hj => h (4 * i + j) (by omega)
    _ = le32 0 0 0 0 := rfl
    _ = 0 := by decide

end rewrite

/-! ### The scrambler (R91 to R93) -/

section scrambler
variable (c : Config) (s s' : State)

theorem word_scrOp (i : Fin 128) : (scrOp c s).word i = s.word i ^^^ c.xorTable i := word_scramble c s i

theorem byte_scrOp {a : Nat} (ha : a < 512) :
    (scrOp c s).byte a = s.byte a ^^^ byteOf (c.xorTable (Fin.ofNat 128 (a / 4))) (a % 4) := byte_scramble c s ha

/-- Byte `j` of word `i` after `SCR`: the XOR of the words goes byte by byte. -/
theorem byte_scrOp_add (i : Fin 128) {j : Nat} (hj : j < 4) :
    (scrOp c s).byte (4 * i + j) = s.byte (4 * i + j) ^^^ byteOf (c.xorTable i) j := by
  calc (scrOp c s).byte (4 * i + j)
      = byteOf ((scrOp c s).word i) j := (byteOf_wordOfBytes _ _ hj).symm
    _ = byteOf (s.word i) j ^^^ byteOf (c.xorTable i) j := by rw [word_scrOp, byteOf_xor]
    _ = s.byte (4 * i + j) ^^^ byteOf (c.xorTable i) j := by rw [State.word, byteOf_wordOfBytes _ _ hj]

/-- The second `SCR` meets the table byte that the first one put in (R92). -/
theorem scrOp_scrOp_sameBuffer : SameBuffer s (scrOp c (scrOp c s)) :=
  fun a ha => by rw [byte_scrOp c _ ha, byte_scrOp c _ ha, BitVec.xor_assoc, BitVec.xor_self, BitVec.xor_zero]

variable {s s'}

theorem scrOp_injective (h : SameBuffer (scrOp c s) (scrOp c s')) : SameBuffer s s' :=
  fun a ha => (BitVec.xor_left_inj _).1 (by simpa only [byte_scrOp c _ ha] using h a ha)

/-- Every sector is the scrambled form of one: of its own scrambled form. -/
theorem scrOp_surjective (f : Nat → Byte) : ∃ s : State, Holds (scrOp c s) f :=
  ⟨scrOp c (State.reset.fill 0 512 f), fun a ha => (scrOp_scrOp_sameBuffer c _ a ha).trans (fill_holds _ f a ha)⟩

variable (s s')

/-- The table byte cancels in the difference of two scrambled buffers (R93 (a)). -/
theorem scrOp_xor_scrOp {a : Nat} (ha : a < 512) :
    (scrOp c s).byte a ^^^ (scrOp c s').byte a = s.byte a ^^^ s'.byte a := by
  rw [byte_scrOp c s ha, byte_scrOp c s' ha]
  generalize byteOf (c.xorTable (Fin.ofNat 128 (a / 4))) (a % 4) = t
  calc s.byte a ^^^ t ^^^ (s'.byte a ^^^ t)
      = s.byte a ^^^ s'.byte a ^^^ (t ^^^ t) := by ac_rfl
    _ = s.byte a ^^^ s'.byte a := by rw [BitVec.xor_self, BitVec.xor_zero]

end scrambler

/-! ### The statements -/

/-- Settles O23, from what `SCR` does to a word and to each of its bytes. -/
theorem scrXorsEveryWord : Obligations.ScrXorsEveryWord :=
  ⟨by decide, rfl, fun s => ⟨_, exec_eq_operate .scr s, word_scrOp _ s, fun i j => byte_scrOp_add _ s i j.isLt,
    fill_finish_ok_frame s _⟩⟩

/-- Settles O24: `SCR` undoes itself, so it is injective and every sector is a result. -/
theorem scrTwiceRestoresBuffer : Obligations.ScrTwiceRestoresBuffer :=
  ⟨fun s => ⟨_, _, exec_eq_operate .scr s, exec_eq_operate .scr _, scrOp_scrOp_sameBuffer _ s⟩,
    scrOp_scrOp_sameBuffer, fun c _ _ => scrOp_injective c, scrOp_surjective⟩

/-- Settles O25: the table cancels in a difference, and a zero word leaves the table's word alone. -/
theorem scrKeepsDifferences : Obligations.ScrKeepsDifferences := by
  refine ⟨fun s s' => ⟨_, _, exec_eq_operate .scr s, exec_eq_operate .scr s', fun a ha => scrOp_xor_scrOp _ s s' ha⟩,
    fun s hzero => ⟨_, exec_eq_operate .scr s, fun i => ?_⟩⟩
  calc (scrOp Config.hardware s).word i
      = s.word i ^^^ Config.hardware.xorTable i := word_scrOp ..
    _ = Config.hardware.xorTable i := by simp [word_eq_zero_of_holds hzero]

/-- Settles O22: a zeroed buffer reads 0 in bytes, hence in words. -/
theorem zeroClearsBuffer : Obligations.ZeroClearsBuffer :=
  have hzero : ∀ s : State, Holds (zeroOp s) fun _ => 0 := fun s _ ha => byte_zeroOp s ha
  ⟨by decide, fun s => ⟨_, exec_eq_operate .zero s, hzero s, word_eq_zero_of_holds (hzero s), fill_finish_ok_frame s _⟩⟩

end Sys2Proof.Proofs.ScramblerLaws
end

section
/-! PROOFS, family 41_checksum. The checksum that four operations compute (41_checksum R100); where `CKEMBED` stores it (R101,
R103) and how `CKVERIFY` compares it (R104); then the theorems that settle the family's statements. -/

namespace Sys2Proof.Proofs.ChecksumLaws
open Sys2Proof.Machine Sys2Proof.Claims Sys2Proof.Proofs.StateLaws Sys2Proof.Proofs.MemoryLaws

section checksums
variable (c : Config) (s : State)

/-- The operations that compute the checksum of the buffer as they find it. -/
def computesChecksum : Instr → Bool
  | .ckcalc | .ckembed | .ckverify | .wkchk => true
  | .zero | .scr | .wktmpl | .wkid _ | .wknext | .wkrst _ | .cmdseal _ | .rspopen => false

/-- Which operation asked does not matter (R100). -/
theorem operate_ckCalc_eq_checksum {i : Instr} (h : computesChecksum i = true) :
    (operate c i s).ckCalc = checksum c s := by
  cases i with
  | ckcalc | ckembed | ckverify | wkchk => rfl
  | zero | scr | wktmpl | wkid _ | wknext | wkrst _ | cmdseal _ | rspopen => cases h

/-- `CKCALC` writes `CK_CALC` and `STATUS` alone (R102). -/
theorem ckcalcOp_frame :
    (ckcalcOp c s).status = 0x00000001 ∧ SameBuffer s (ckcalcOp c s) ∧ (ckcalcOp c s).ckRecv = s.ckRecv ∧
      SameCounters s (ckcalcOp c s) ∧ SameHostSide s (ckcalcOp c s) :=
  ⟨rfl, fun _ _ => rfl, rfl, ⟨rfl, rfl⟩, rfl, rfl, rfl⟩

/-- Outside the buffer, `CKEMBED` writes `CK_CALC` and `STATUS` alone (R103). -/
theorem ckembedOp_frame :
    (ckembedOp c s).status = 0x00000001 ∧ (ckembedOp c s).ckRecv = s.ckRecv ∧ SameCounters s (ckembedOp c s) ∧
      SameHostSide s (ckembedOp c s) :=
  ⟨rfl, rfl, ⟨rfl, rfl⟩, rfl, rfl, rfl⟩

/-- The stored checksum, as a word (R101). -/
theorem word_ckembedOp : (ckembedOp c s).word 127 = checksum c s := word_embed c s

/-- The stored checksum, byte by byte, little-endian (R101). -/
theorem byte_ckembedOp_stored {j : Nat} (hj : j < 4) : (ckembedOp c s).byte (508 + j) = byteOf (checksum c s) j :=
  byte_setWord_add s 127 (checksum c s) hj

/-- The store is outside the payload, so the checksum of the buffer stays (R105). -/
theorem checksum_ckembedOp : checksum c (ckembedOp c s) = checksum c s := checksum_embed c s

/-- `CKVERIFY` writes the latches and `STATUS` alone, on a match and on a mismatch (R104). -/
theorem ckverifyOp_frame :
    SameBuffer s (ckverifyOp c s) ∧ SameCounters s (ckverifyOp c s) ∧ SameHostSide s (ckverifyOp c s) :=
  ⟨fun _ _ => rfl, ⟨rfl, rfl⟩, rfl, rfl, rfl⟩

variable {c s}

theorem ckverifyOp_status_of_eq (h : checksum c s = s.word 127) : (ckverifyOp c s).status = 0x00000101 := by
  rw [ckverifyOp, verify_spec]
  exact if_pos h

theorem ckverifyOp_status_of_ne (h : checksum c s ≠ s.word 127) : (ckverifyOp c s).status = 0x00000002 := by
  rw [ckverifyOp, verify_spec]
  exact if_neg h

end checksums

/-! ### The statements -/

/-- Settles O27: word 127 and its bytes hold the checksum, which was computed before the store. -/
theorem ckembedStoresChecksum : Obligations.CkembedStoresChecksum := by
  refine ⟨by decide, fun s => ⟨_, exec_eq_operate .ckembed s, ?_⟩⟩
  have hcalc := operate_ckCalc_eq_checksum Config.hardware s (i := .ckembed) rfl
  rw [hcalc]
  exact ⟨rfl, word_ckembedOp _ s, fun j => byte_ckembedOp_stored _ s j.isLt, ckembedOp_sameOutside _ s,
    ckembedOp_frame _ s⟩

/-- Settles O28, one outcome of the comparison at a time. -/
theorem ckverifyComparesChecksums : Obligations.CkverifyComparesChecksums :=
  ⟨by decide, fun s => ⟨_, exec_eq_operate .ckverify s, operate_ckCalc_eq_checksum _ s rfl, verify_ckRecv _ s,
    fun heq => ckverifyOp_status_of_eq heq, fun hne => ckverifyOp_status_of_ne hne, ckverifyOp_frame _ s⟩⟩

/-- Settles O29: the four operations compute the checksum of the payload, and the two payloads are one. -/
theorem checksumCoversPayloadAlone : Obligations.ChecksumCoversPayloadAlone := by
  intro s s' hpayload
  have hsame : checksum Config.hardware s' = checksum Config.hardware s := (checksum_congr _ hpayload).symm
  have hcalc : ∀ i, computesChecksum i = true →
      (operate Config.hardware i s').ckCalc = checksum Config.hardware s :=
    fun _ hi => (operate_ckCalc_eq_checksum _ s' hi).trans hsame
  exact ⟨_, _, _, _, _, exec_eq_operate .ckcalc s, exec_eq_operate .ckembed s', exec_eq_operate .ckverify s',
    exec_eq_operate .wkchk s', operate_ckCalc_eq_checksum _ s rfl, hcalc _ rfl, hcalc _ rfl, hcalc _ rfl⟩

/-- Settles O30: the payload that `CKVERIFY` reads is the one whose checksum `CKEMBED` stored. -/
theorem embedThenVerifySucceeds : Obligations.EmbedThenVerifySucceeds := by
  intro s
  have hmatch : checksum Config.hardware (ckembedOp Config.hardware s) = (ckembedOp Config.hardware s).word 127 :=
    (checksum_ckembedOp _ s).trans (word_ckembedOp _ s).symm
  exact ⟨_, _, exec_eq_operate .ckembed s, exec_eq_operate .ckverify _, ckverifyOp_status_of_eq hmatch, hmatch⟩

/-- Settles O26, from the computed checksum and what `CKCALC` leaves. -/
theorem ckcalcLatchesChecksum : Obligations.CkcalcLatchesChecksum :=
  ⟨by decide, fun s => ⟨_, exec_eq_operate .ckcalc s, operate_ckCalc_eq_checksum _ s rfl, ckcalcOp_frame _ s⟩⟩

end Sys2Proof.Proofs.ChecksumLaws
end

section
/-! PROOFS, family 42_wake_builder. The regions of the template (R110) and of a frame (R112); what the identifier write leaves
(R111); which states `WKID k` and `WKNEXT` leave a frame in (R113, R114); then the theorems that settle the family's
statements. -/

namespace Sys2Proof.Proofs.WakeBuilderLaws
open Sys2Proof.Machine Sys2Proof.Claims Sys2Proof.Proofs.StateLaws Sys2Proof.Proofs.EncodingLaws
  Sys2Proof.Proofs.ChecksumLaws

/-! ### Command words -/

/-- A command word as the number of R71. -/
theorem encode_eq_ofNat (i : Instr) : encode i = BitVec.ofNat 32 (i.op.toNat + 65536 * i.arg.toNat) := by
  apply BitVec.eq_of_toNat_eq
  rw [BitVec.toNat_ofNat, Nat.mod_eq_of_lt (by omega)]
  simpa using toNat_eq_sum_fields (encode i)

/-- The operand of `WKID k` is `k` (R72). -/
theorem toNat_frameIndex (k : Fin 4) : (BitVec.ofNat 10 k.val).toNat = k.val := by
  rw [BitVec.toNat_ofNat, Nat.mod_eq_of_lt (by omega)]

/-! ### The template, region by region (R110) -/

section template
variable (c : Config) (s : State)

theorem toNat_filler (a : Nat) : (filler a).toNat = a % 256 :=
  (congrArg BitVec.toNat (filler_eq a)).trans (BitVec.toNat_ofNat ..)

theorem byte_template_magic (j : Fin 4) : (template c s).byte j = c.wakeMagic j := by
  rw [byte_template c s (by omega), if_pos j.isLt, ofNat4_eq rfl]

theorem byte_template_gap {a : Nat} (h4 : 4 ≤ a) (h16 : a < 0x10) : (template c s).byte a = 0 := by
  rw [byte_template c s (by omega), if_neg (by omega), if_pos h16]

theorem byte_template_filler {a : Nat} (hlo : 0x10 ≤ a) (hhi : a < 0x1F8) : (template c s).byte a = filler a := by
  rw [byte_template c s (by omega), if_neg (by omega), if_neg (by omega), if_pos hhi]

theorem byte_template_trailer (j : Fin 8) : (template c s).byte (0x1F8 + j) = c.wakeTrailer j := by
  rw [byte_template c s (by omega), if_neg (by omega), if_neg (by omega), if_neg (by omega),
    ofNat8_eq (j := j) (by omega)]

/-- Word 0 holds the magic alone, little-endian (R52). -/
theorem word_template_zero :
    (template c s).word 0 = le32 (c.wakeMagic 0) (c.wakeMagic 1) (c.wakeMagic 2) (c.wakeMagic 3) := by
  rw [← byte_template_magic c s 0, ← byte_template_magic c s 1, ← byte_template_magic c s 2,
    ← byte_template_magic c s 3]
  rfl

/-- Words 4..125 lie in the filler. -/
theorem word_template_filler {i : Nat} (hlo : 4 ≤ i) (hhi : i < 126) :
    (template c s).word i = wordOfBytes filler i :=
  wordOfBytes_congr fun j hj => byte_template_filler c s (a := 4 * i + j) (by omega) (by omega)

/-- The words that R110 lists from the filler: its first and last, and the two where the offset passes a multiple of 256. -/
theorem word_template_filler_values :
    (template c s).word 4 = 0x13121110 ∧ (template c s).word 63 = 0xFFFEFDFC ∧ (template c s).word 64 = 0x03020100 ∧
      (template c s).word 125 = 0xF7F6F5F4 := by
  simp (disch := omega) only [word_template_filler c s]
  decide

/-- Outside the buffer, `WKTMPL` writes `STATUS` alone. -/
theorem wktmplOp_frame :
    (wktmplOp c s).status = 0x00000001 ∧ SameChecksums s (wktmplOp c s) ∧ SameCounters s (wktmplOp c s) ∧
      SameHostSide s (wktmplOp c s) := by
  refine ⟨rfl, ?_⟩
  simp [wktmplOp, SameChecksums, SameCounters, SameHostSide]

end template

/-! ### A frame, region by region (R112) -/

section layout
variable (c : Config) (k : Fin 4)

theorem wakeFrame_magic (j : Fin 4) : wakeFrame c k j = c.wakeMagic j := by
  rw [wakeFrame_body (by omega), wakeFrameBody, if_pos j.isLt, ofNat4_eq rfl]

theorem wakeFrame_id (j : Fin 4) : wakeFrame c k (4 + j) = c.wakeId k j := by
  rw [wakeFrame_body (by omega), wakeFrameBody, if_neg (by omega), if_pos (by omega), ofNat4_eq (j := j) (by omega)]

theorem wakeFrame_gap {a : Nat} (h8 : 8 ≤ a) (h16 : a < 0x10) : wakeFrame c k a = 0 := by
  rw [wakeFrame_body (by omega), wakeFrameBody, if_neg (by omega), if_neg (by omega), if_pos h16]

theorem wakeFrame_filler {a : Nat} (hlo : 0x10 ≤ a) (hhi : a < 0x1F8) : wakeFrame c k a = filler a := by
  rw [wakeFrame_body (by omega), wakeFrameBody, if_neg (by omega), if_neg (by omega), if_neg (by omega), if_pos hhi]

theorem wakeFrame_trailer (j : Fin 4) : wakeFrame c k (0x1F8 + j) = c.wakeTrailer (j.castLE (by omega)) := by
  rw [wakeFrame_body (by omega), wakeFrameBody, if_neg (by omega), if_neg (by omega), if_neg (by omega),
    if_neg (by omega), ofNat8_eq (j := j.castLE (by omega)) (by simp)]

/-- The checksum of R112 is that of the frame itself, which the stored checksum is not part of. -/
theorem wakeChecksum_eq_cksumFn : wakeChecksum c k = c.cksumFn fun i => wordOfBytes (wakeFrame c k) i := by
  refine congrArg c.cksumFn (funext fun i => wordOfBytes_congr fun j hj => ?_)
  exact (wakeFrame_body (by omega)).symm

theorem wakeFrame_checksum (j : Fin 4) : wakeFrame c k (0x1FC + j) = byteOf (wakeChecksum c k) j := by
  rw [wakeFrame, if_neg (by omega), Nat.add_sub_cancel_left]

variable {c} (k' : Fin 4)

/-- Outside the identifier and the checksum the index does not matter. -/
theorem wakeFrame_other {a : Nat} (ha : a < 508) (hid : ¬(4 ≤ a ∧ a < 8)) : wakeFrame c k a = wakeFrame c k' a := by
  rw [wakeFrame_body ha, wakeFrame_body ha, wakeFrameBody_other c k k' hid]

variable {k k'}

/-- The identifiers of two frames differ (00_scope R10). -/
theorem wakeFrame_id_ne (hc : c.wellFormed = true) (hne : k ≠ k') :
    ∃ a, 4 ≤ a ∧ a < 8 ∧ wakeFrame c k a ≠ wakeFrame c k' a := by
  obtain ⟨j, hj⟩ := of_decide_eq_true hc k k' hne
  refine ⟨4 + j, by omega, by omega, ?_⟩
  rwa [wakeFrame_id, wakeFrame_id]

end layout

/-! ### The identifier write (R111) -/

section identifier
variable (c : Config) (k : Fin 4) (s : State)

theorem wkidOp_ofNat : wkidOp c (BitVec.ofNat 10 k.val) s = (identify c k s).finish .ok {} := by
  rw [wkidOp_of_lt c s ((toNat_frameIndex k).trans_lt k.isLt)]
  simp only [toNat_frameIndex]

theorem byte_identify_id (j : Fin 4) : (identify c k s).byte (4 + j) = c.wakeId k j := by
  rw [byte_identify, if_neg (by omega), if_pos (by omega), ofNat4_eq (j := j) (by omega)]

theorem byte_identify_outside {a : Nat} (ha : a < 508) (hid : ¬(4 ≤ a ∧ a < 8)) :
    (identify c k s).byte a = s.byte a := by
  rw [byte_identify, if_neg (by omega), if_neg hid]

/-- The checksum is of the payload with the identifier in place, so it is that of the buffer as `WKID k` leaves it. -/
theorem identify_ckCalc_eq_checksum : (identify c k s).ckCalc = checksum c (identify c k s) :=
  (checksum_embed c (writeId c k s)).symm

/-- The stored checksum is the computed one. -/
theorem word_identify : (identify c k s).word 127 = (identify c k s).ckCalc := word_embed c (writeId c k s)

end identifier

/-! ### Building a frame (R113, R114) -/

section build
variable {c : Config} {k : Fin 4} {s : State}

/-- The buffer is frame `k` but for its identifier and its stored checksum. -/
def FrameButId (c : Config) (k : Fin 4) (s : State) : Prop :=
  ∀ a, a < 508 → ¬(4 ≤ a ∧ a < 8) → s.byte a = wakeFrameBody c k a

theorem template_frameButId : FrameButId c k (template c s) :=
  fun _ ha hid => byte_template_frame c s k ha hid

/-- Every frame serves as a template for every other. -/
theorem FrameButId.of_holds (h : Holds s (wakeFrame c k)) (k' : Fin 4) : FrameButId c k' s :=
  fun a ha hid => by rw [h a (by omega), wakeFrame_other k k' ha hid, wakeFrame_body ha]

/-- `WKID k` completes the frame. -/
theorem wkidOp_builds (h : FrameButId c k s) :
    Holds (wkidOp c (BitVec.ofNat 10 k.val) s) (wakeFrame c k) ∧
      (wkidOp c (BitVec.ofNat 10 k.val) s).ckCalc = wakeChecksum c k := by
  obtain ⟨hchecksum, hbytes⟩ := identify_frame h
  rw [wkidOp_ofNat]
  exact ⟨hbytes, hchecksum⟩

theorem byte_with_wseq (v : BitVec 3) : { s with wseq := v }.byte = s.byte := rfl

theorem byte_wknextOp_of_lt (h : s.wseq.toNat < 4) :
    (wknextOp c s).byte = (identify c ⟨s.wseq.toNat, h⟩ (template c s)).byte := by
  rw [wknextOp_of_lt c s h, State.byte_finish, byte_with_wseq]

/-- `WKNEXT` builds the frame that `WSEQ` selects and counts up. -/
theorem wknextOp_builds (h : s.wseq.toNat = k.val) :
    Holds (wknextOp c s) (wakeFrame c k) ∧ (wknextOp c s).ckCalc = wakeChecksum c k ∧
      (wknextOp c s).wseq.toNat = k.val + 1 ∧ (wknextOp c s).status = 0x00000001 := by
  obtain ⟨n, hn⟩ := k
  obtain rfl : s.wseq.toNat = n := h
  obtain ⟨hchecksum, hbytes⟩ := identify_frame (template_frameButId (c := c) (s := s))
  rw [Holds, byte_wknextOp_of_lt hn, wknextOp_of_lt c s hn]
  have hwseq : (s.wseq + 1).toNat = s.wseq.toNat + 1 := by bv_omega
  exact ⟨hbytes, hchecksum, hwseq, rfl⟩

theorem exec_wknext_of_ge (h : 4 ≤ s.wseq.toNat) : exec .wknext s = .next { s with status := 0x00000005 } :=
  congrArg Host.Outcome.next (wknextOp_of_ge Config.hardware s h)

end build

/-! ### The statements -/

/-- Settles O31, region by region; the listed words lie in the magic and in the filler. -/
theorem wktmplBuildsTemplate : Obligations.WktmplBuildsTemplate := by
  refine ⟨by decide, fun s => ⟨(template Config.hardware s).finish .ok {}, exec_eq_operate .wktmpl s, ?_⟩⟩
  rw [State.byte_finish, State.word_finish]
  have hmagic := byte_template_magic Config.hardware s
  obtain ⟨hword4, hword63, hword64, hword125⟩ := word_template_filler_values Config.hardware s
  exact ⟨hmagic 0, hmagic 1, hmagic 2, hmagic 3, fun a => byte_template_gap _ s,
    fun a hlo hhi => (congrArg BitVec.toNat (byte_template_filler _ s hlo hhi)).trans (toNat_filler a),
    byte_template_trailer _ s, (word_template_zero _ s).trans (by decide), hword4, hword63, hword64, hword125,
    wktmplOp_frame _ s⟩

/-- Settles O32: a legal operand writes the identifier, then embeds; a larger one makes the word illegal. -/
theorem wkidWritesIdentifier : Obligations.WkidWritesIdentifier := by
  constructor
  · intro k s
    refine ⟨?_, (identify Config.hardware k s).finish .ok {}, congrArg Host.Outcome.next (wkidOp_ofNat _ k s),
      byte_identify_id _ k s, identify_ckCalc_eq_checksum Config.hardware k s, word_identify _ k s,
      fun a => byte_identify_outside _ k s, rfl, rfl, ⟨rfl, rfl⟩, rfl, rfl, rfl⟩
    rw [encode_eq_ofNat, Instr.arg, toNat_frameIndex]
    rfl
  · intro k s hk
    obtain ⟨hexec, -, hissue, -⟩ := operandAboveThreeIsIllegalCommand k s hk
    rw [encode_eq_ofNat] at hissue
    exact hissue.symm.trans hexec

/-- Settles O33, region by region; two frames differ where their identifiers do. -/
theorem wakeFrameIsTheLayout : Obligations.WakeFrameIsTheLayout := by
  refine ⟨fun k => ⟨wakeFrame_magic _ k, wakeFrame_id _ k, fun a => wakeFrame_gap _ k, fun a hlo hhi => ?_,
    wakeFrame_trailer _ k, fun j => ?_⟩,
    fun k k' hne => ⟨wakeFrame_id_ne Config.hardware_wellFormed hne, fun a => wakeFrame_other k k'⟩⟩
  · rw [wakeFrame_filler _ k hlo hhi, toNat_filler]
  · rw [wakeFrame_checksum, wakeChecksum_eq_cksumFn]
    rfl

/-- Settles O34: the template, and every frame, is a frame but for the identifier and the checksum. -/
theorem builderGivesWakeFrames : Obligations.BuilderGivesWakeFrames := by
  intro s k
  refine ⟨⟨_, _, exec_eq_operate .wktmpl s, exec_eq_operate (.wkid _) _, wkidOp_builds template_frameButId⟩,
    fun h k' => ⟨_, exec_eq_operate (.wkid _) s, (wkidOp_builds (.of_holds h k')).1⟩,
    fun h => ⟨_, exec_eq_operate .ckverify s, ?_⟩⟩
  obtain ⟨hcomputed, hstored⟩ := checksums_of_frame h
  exact ckverifyOp_status_of_eq (hcomputed.trans hstored.symm)

/-- Settles O35: each `WKNEXT` below 4 builds the frame of its index and leaves the next index. -/
theorem wknextBuildsNextFrame : Obligations.WknextBuildsNextFrame := by
  refine ⟨by decide, fun s k hk => ?_, fun s => exec_wknext_of_ge, fun s hs => ?_⟩
  · obtain ⟨hframe, hcalc, hwseq, hstatus⟩ := wknextOp_builds (c := Config.hardware) hk
    exact ⟨_, exec_eq_operate .wknext s, hframe, hcalc, hwseq, hstatus, wknextOp_frame _ s⟩
  · have hwseq : s.wseq.toNat = (0 : Fin 4).val := by
      rw [hs]
      rfl
    obtain ⟨hframe0, -, hwseq0, -⟩ := wknextOp_builds (c := Config.hardware) (k := 0) hwseq
    obtain ⟨hframe1, -, hwseq1, -⟩ := wknextOp_builds (c := Config.hardware) (k := 1) hwseq0
    obtain ⟨hframe2, -, hwseq2, -⟩ := wknextOp_builds (c := Config.hardware) (k := 2) hwseq1
    obtain ⟨hframe3, -, hwseq3, -⟩ := wknextOp_builds (c := Config.hardware) (k := 3) hwseq2
    exact ⟨_, _, _, _, exec_eq_operate .wknext s, exec_eq_operate .wknext _, exec_eq_operate .wknext _,
      exec_eq_operate .wknext _, hframe0, hframe1, hframe2, hframe3, BitVec.eq_of_toNat_eq hwseq3,
      exec_wknext_of_ge hwseq3.ge⟩

/-- Settles O36: a legal mask clears the counters it selects; a larger one makes the word illegal. -/
theorem wkrstClearsCounters : Obligations.WkrstClearsCounters := by
  constructor
  · intro m s hm
    exact ⟨encode_eq_ofNat (.wkrst m), congrArg Host.Outcome.next (wkrstOp_of_lt s (by omega))⟩
  · intro m s hm
    obtain ⟨-, hexec, -, hissue⟩ := operandAboveThreeIsIllegalCommand m s hm
    rw [encode_eq_ofNat] at hissue
    exact hissue.symm.trans hexec

end Sys2Proof.Proofs.WakeBuilderLaws
end

section
/-! PROOFS, family 43_wake_validator. How a list of checked frames counts in the order 0, 1, 2, 3; the lines of the verdict
table (R123); which buffers `WKCHK` accepts (R122); what a check does to the tracker (R124), and a list of checks (R125);
then the theorems that settle the family's statements. -/

namespace Sys2Proof.Proofs.WakeValidatorLaws
open Sys2Proof.Machine Sys2Proof.Claims Sys2Proof.Proofs.StateLaws Sys2Proof.Proofs.EncodingLaws
  Sys2Proof.Proofs.ScramblerLaws Sys2Proof.Proofs.WakeBuilderLaws

/-! ### The order 0, 1, 2, 3 (R124) -/

/-- Frame `k` is heard at count `v`: it starts the sequence, or is the next one of it (R124 (c), (d)). -/
abbrev InOrder (v : Nat) (k : Fin 4) : Prop := k = 0 ∨ k.val = v

/-- The count after frame `k`. -/
def advance (v : Nat) (k : Fin 4) : Nat := if InOrder v k then k.val + 1 else 0

/-- The start of the sequence that ends with frame `n`. -/
def upTo : Fin 4 → List (Fin 4)
  | 0 => [0]
  | 1 => [0, 1]
  | 2 => [0, 1, 2]
  | 3 => [0, 1, 2, 3]

section order
variable {ks : List (Fin 4)}

theorem getLast?_of_upTo_suffix {n : Fin 4} (h : upTo n <:+ ks) : ks.getLast? = some n := by
  obtain ⟨l, rfl⟩ := h
  fin_cases n <;> simp [upTo]

/-- A list ends in one start of the sequence at most: its last frame says which. -/
theorem upTo_suffix_unique {n m : Fin 4} (hn : upTo n <:+ ks) (hm : upTo m <:+ ks) : n = m :=
  Option.some.inj ((getLast?_of_upTo_suffix hn).symm.trans (getLast?_of_upTo_suffix hm))

theorem progress_cases :
    (∃ n, progress ks = n.val + 1 ∧ upTo n <:+ ks) ∨ progress ks = 0 ∧ ∀ n, ¬ upTo n <:+ ks := by
  unfold progress
  split_ifs with h3 h2 h1 h0
  · exact .inl ⟨3, rfl, h3⟩
  · exact .inl ⟨2, rfl, h2⟩
  · exact .inl ⟨1, rfl, h1⟩
  · exact .inl ⟨0, rfl, h0⟩
  · refine .inr ⟨rfl, fun n => ?_⟩
    fin_cases n
    exacts [h0, h1, h2, h3]

theorem progress_eq_succ_iff {n : Fin 4} : progress ks = n.val + 1 ↔ upTo n <:+ ks := by
  obtain ⟨m, hm, hsuffix⟩ | ⟨hzero, hnone⟩ := progress_cases (ks := ks)
  · rw [hm, Nat.add_right_cancel_iff, Fin.val_inj]
    exact ⟨fun h => h ▸ hsuffix, upTo_suffix_unique hsuffix⟩
  · simp [hzero, hnone n]

theorem concat_suffix_concat {l : List (Fin 4)} {a k : Fin 4} : l ++ [a] <:+ ks ++ [k] ↔ a = k ∧ l <:+ ks := by
  simp [List.suffix_concat_iff, and_comm]

/-- One more frame: it must be the last of the start, and what was there before must end in the rest of it. -/
theorem upTo_suffix_concat {n k : Fin 4} : upTo n <:+ ks ++ [k] ↔ n = k ∧ InOrder (progress ks) n := by
  fin_cases n
  · exact (concat_suffix_concat (l := [])).trans (by simp [InOrder])
  · exact (concat_suffix_concat (l := upTo 0)).trans (by simp [InOrder, ← progress_eq_succ_iff, eq_comm])
  · exact (concat_suffix_concat (l := upTo 1)).trans (by simp [InOrder, ← progress_eq_succ_iff, eq_comm])
  · exact (concat_suffix_concat (l := upTo 2)).trans (by simp [InOrder, ← progress_eq_succ_iff, eq_comm])

theorem progress_concat (k : Fin 4) : progress (ks ++ [k]) = advance (progress ks) k := by
  by_cases hk : InOrder (progress ks) k
  · rw [advance, if_pos hk, progress_eq_succ_iff, upTo_suffix_concat]
    exact ⟨rfl, hk⟩
  · rw [advance, if_neg hk]
    obtain ⟨n, -, hsuffix⟩ | ⟨hzero, -⟩ := progress_cases (ks := ks ++ [k])
    · obtain ⟨rfl, horder⟩ := upTo_suffix_concat.1 hsuffix
      exact absurd horder hk
    · exact hzero

theorem foldl_advance_progress (l : List (Fin 4)) : ks.foldl advance (progress l) = progress (l ++ ks) := by
  induction ks generalizing l with
  | nil => rw [List.append_nil, List.foldl_nil]
  | cons k ks ih => rw [List.foldl_cons, ← progress_concat, ih, List.append_assoc, List.singleton_append]

end order

/-! ### The verdict, line by line (R123) -/

section verdict
variable {f : Flags} {v : BitVec 3}

theorem struct_iff : f.struct = true ↔
    f.magic = true ∧ f.idhit = true ∧ f.gap = true ∧ f.fill = true ∧ f.trail = true := by
  simp [Flags.struct, and_assoc]

theorem wakeVerdict_of_unmarked (hmagic : f.magic = false) : wakeVerdict f v = (.notWakeFrame, v) := by
  simp [wakeVerdict, hmagic]

theorem wakeVerdict_of_broken (hmagic : f.magic = true) (hstruct : f.struct = false) :
    wakeVerdict f v = (.notWakeFrame, 0) := by
  simp [wakeVerdict, hmagic, hstruct]

theorem wakeVerdict_of_mismatch (hstruct : f.struct = true) (hckok : f.ckok = false) :
    wakeVerdict f v = (.checksumMismatch, 0) := by
  simp [wakeVerdict, (struct_iff.1 hstruct).1, hstruct, hckok]

/-- The last three lines of the table: a valid frame. -/
theorem wakeVerdict_of_valid (hstruct : f.struct = true) (hckok : f.ckok = true) :
    wakeVerdict f v =
      if f.idx = 0 then (.ok, 1) else if f.idx.val = v.toNat then (.ok, v + 1) else (.sequenceError, 0) := by
  simp [wakeVerdict, (struct_iff.1 hstruct).1, hstruct, hckok]

/-- A valid frame advances the count if it is heard, and clears it if not. -/
theorem wakeVerdict_advance (hstruct : f.struct = true) (hckok : f.ckok = true) :
    (wakeVerdict f v).1 = (if InOrder v.toNat f.idx then .ok else .sequenceError) ∧
      (wakeVerdict f v).2.toNat = advance v.toNat f.idx := by
  have hidx := f.idx.isLt
  rw [wakeVerdict_of_valid hstruct hckok, advance]
  split_ifs with hfirst horder hnext horder horder
  · exact ⟨rfl, by rw [hfirst]; rfl⟩
  · exact absurd (.inl hfirst) horder
  · exact ⟨rfl, by show (v + 1).toNat = _; bv_omega⟩
  · exact absurd (.inr hnext) horder
  · exact absurd horder (by simp [hfirst, hnext])
  · exact ⟨rfl, rfl⟩

/-- The magic without a valid frame clears the tracker (R124 (b)). -/
theorem wakeVerdict_of_invalid (hmagic : f.magic = true) (h : ¬(f.struct = true ∧ f.ckok = true)) :
    (wakeVerdict f v).2 = 0 := by
  by_cases hstruct : f.struct = true
  · rw [wakeVerdict_of_mismatch hstruct (Bool.eq_false_iff.2 fun hckok => h ⟨hstruct, hckok⟩)]
  · rw [wakeVerdict_of_broken hmagic (Bool.eq_false_iff.2 hstruct)]

/-- `STATUS` of a valid frame as a number (R123). -/
theorem pack_of_valid (r : Result) (hstruct : f.struct = true) (hckok : f.ckok = true) :
    pack r f = BitVec.ofNat 32 (0x3F00 + r.code + 0x4000 * f.idx.val) := by
  obtain ⟨hmagic, hidhit, hgap, hfill, htrail⟩ := struct_iff.1 hstruct
  apply BitVec.eq_of_toNat_eq
  have hcode := r.code_le
  rw [pack_toNat, BitVec.toNat_ofNat, Nat.mod_eq_of_lt (by omega)]
  simp only [hckok, hmagic, hidhit, hgap, hfill, htrail, Bool.toNat_true]
  omega

/-- Bits 8 to 13 of `STATUS` are all set for a valid frame alone (R25). -/
theorem pack_flags_eq_iff (r : Result) (f : Flags) :
    (pack r f).extractLsb' 8 6 = 0x3F ↔ f.struct = true ∧ f.ckok = true := by
  obtain ⟨-, -, hckok, hmagic, hidhit, hgap, hfill, htrail, -, -⟩ := pack_fields r f
  have hbit : ∀ j : Fin 6, ((pack r f).extractLsb' 8 6).getLsbD j = (pack r f).getLsbD (8 + j) := fun j => by simp
  have hones : ∀ j : Fin 6, (0x3F : BitVec 6).getLsbD j = true := by decide
  rw [struct_iff, ← hckok, ← hmagic, ← hidhit, ← hgap, ← hfill, ← htrail]
  constructor
  · intro h
    have hset : ∀ j : Fin 6, (pack r f).getLsbD (8 + j) = true := fun j => by rw [← hbit, h, hones]
    exact ⟨⟨hset 1, hset 2, hset 3, hset 4, hset 5⟩, hset 0⟩
  · rintro ⟨⟨h9, h10, h11, h12, h13⟩, h8⟩
    refine BitVec.eq_of_getLsbD_eq fun j hj => (hbit ⟨j, hj⟩).trans (Eq.trans ?_ (hones ⟨j, hj⟩).symm)
    interval_cases j
    exacts [h8, h9, h10, h11, h12, h13]

end verdict

/-! ### The buffers that `WKCHK` accepts (R122) -/

/-- The magic as the document gives it (00_scope R7). -/
theorem hardware_magic_iff {s : State} : (∀ j : Fin 4, s.byte j.val = Config.hardware.wakeMagic j) ↔
    s.byte 0 = 0x19 ∧ s.byte 1 = 0x7B ∧ s.byte 2 = 0x03 ∧ s.byte 3 = 0x25 := by
  refine ⟨fun h => ⟨h 0, h 1, h 2, h 3⟩, fun ⟨h0, h1, h2, h3⟩ j => ?_⟩
  fin_cases j
  exacts [h0, h1, h2, h3]

section exactness
variable {c : Config} (hc : c.wellFormed = true) {s : State} {k : Fin 4}
include hc

/-- The five matchers pin bytes 0..507. -/
theorem byte_of_struct (hstruct : (wakeFlags c s).struct = true) {a : Nat} (ha : a < 508) :
    s.byte a = wakeFrame c (wakeFlags c s).idx a := by
  obtain ⟨hmagic, hidhit, hidx, -, hgap, hfill, htrail, -⟩ := wakeFlags_spec hc s
  obtain ⟨magic, idhit, gap, fill, trail⟩ := struct_iff.1 hstruct
  obtain ⟨k, hid⟩ := hidhit.1 idhit
  rw [hidx k hid]
  obtain h4 | h4 := Nat.lt_or_ge a 4
  · exact (hmagic.1 magic ⟨a, h4⟩).trans (wakeFrame_magic c k ⟨a, h4⟩).symm
  obtain h8 | h8 := Nat.lt_or_ge a 8
  · obtain ⟨j, rfl⟩ := Nat.exists_eq_add_of_le h4
    exact (hid ⟨j, by omega⟩).trans (wakeFrame_id c k ⟨j, by omega⟩).symm
  obtain h16 | h16 := Nat.lt_or_ge a 0x10
  · exact (hgap.1 gap a h8 h16).trans (wakeFrame_gap c k h8 h16).symm
  obtain hend | hend := Nat.lt_or_ge a 0x1F8
  · exact (hfill.1 fill a h16 hend).trans (wakeFrame_filler c k h16 hend).symm
  · obtain ⟨j, rfl⟩ := Nat.exists_eq_add_of_le hend
    exact (htrail.1 trail ⟨j, by omega⟩).trans (wakeFrame_trailer c k ⟨j, by omega⟩).symm

/-- With bytes 0..507 those of the frame, `CKOK` pins the stored checksum. -/
theorem holds_of_valid (hstruct : (wakeFlags c s).struct = true) (hckok : (wakeFlags c s).ckok = true) :
    Holds s (wakeFrame c (wakeFlags c s).idx) := by
  obtain ⟨-, -, -, -, -, -, -, hchecksum⟩ := wakeFlags_spec hc s
  have hbody : ∀ a < 508, s.byte a = wakeFrameBody c (wakeFlags c s).idx a := fun a ha =>
    (byte_of_struct hc hstruct ha).trans (wakeFrame_body ha)
  have hstored : s.word 127 = wakeChecksum c (wakeFlags c s).idx := by
    rw [← hchecksum.1 hckok, checksum, payload_of_bytes hbody]
    rfl
  intro a ha
  obtain h508 | h508 := Nat.lt_or_ge a 508
  · exact byte_of_struct hc hstruct h508
  · obtain ⟨j, rfl⟩ := Nat.exists_eq_add_of_le h508
    rw [wakeFrame_checksum c _ ⟨j, by omega⟩, ← hstored]
    exact (byteOf_wordOfBytes s.byte 127 (by omega)).symm

theorem valid_of_holds (h : Holds s (wakeFrame c k)) :
    (wakeFlags c s).struct = true ∧ (wakeFlags c s).ckok = true ∧ (wakeFlags c s).idx = k := by
  obtain ⟨-, -, -, -, -, -, -, hchecksum⟩ := wakeFlags_spec hc s
  obtain ⟨hstruct, hidx⟩ := wakeFlags_of_frame hc fun a ha => (h a (by omega)).trans (wakeFrame_body ha)
  obtain ⟨hcomputed, hstored⟩ := checksums_of_frame h
  exact ⟨hstruct, hchecksum.2 (hcomputed.trans hstored.symm), hidx⟩

theorem holds_iff_valid : Holds s (wakeFrame c k) ↔
    (wakeFlags c s).struct = true ∧ (wakeFlags c s).ckok = true ∧ (wakeFlags c s).idx = k := by
  refine ⟨valid_of_holds hc, ?_⟩
  rintro ⟨hstruct, hckok, rfl⟩
  exact holds_of_valid hc hstruct hckok

end exactness

/-! ### The tracker over one check (R124) -/

section tracker
variable {c : Config} {s : State}

theorem wkchkOp_status : (wkchkOp c s).status = pack (wakeVerdict (wakeFlags c s) s.vseq).1 (wakeFlags c s) := rfl

theorem wkchkOp_vseq : (wkchkOp c s).vseq = (wakeVerdict (wakeFlags c s) s.vseq).2 := rfl

variable (hc : c.wellFormed = true)
include hc

theorem wkchkOp_vseq_of_unmarked (h : ∃ j : Fin 4, s.byte j.val ≠ c.wakeMagic j) : (wkchkOp c s).vseq = s.vseq := by
  obtain ⟨hmagic, -⟩ := wakeFlags_spec hc s
  have hunmarked : (wakeFlags c s).magic = false :=
    Bool.eq_false_iff.2 fun hset => not_exists_not.2 (hmagic.1 hset) h
  rw [wkchkOp_vseq, wakeVerdict_of_unmarked hunmarked]

theorem wkchkOp_vseq_of_no_frame (hmarked : ∀ j : Fin 4, s.byte j.val = c.wakeMagic j)
    (hno : ∀ k, ¬ Holds s (wakeFrame c k)) : (wkchkOp c s).vseq = 0 := by
  obtain ⟨hmagic, -⟩ := wakeFlags_spec hc s
  rw [wkchkOp_vseq]
  exact wakeVerdict_of_invalid (hmagic.2 hmarked) fun ⟨hstruct, hckok⟩ => hno _ (holds_of_valid hc hstruct hckok)

theorem wkchkOp_of_frame {k : Fin 4} (h : Holds s (wakeFrame c k)) :
    (wkchkOp c s).vseq.toNat = advance s.vseq.toNat k ∧
      (wkchkOp c s).status.extractLsb' 0 4 = if InOrder s.vseq.toNat k then 1 else 5 := by
  obtain ⟨hstruct, hckok, rfl⟩ := valid_of_holds hc h
  obtain ⟨hresult, hvseq⟩ := wakeVerdict_advance (v := s.vseq) hstruct hckok
  refine ⟨hvseq, BitVec.eq_of_toNat_eq ?_⟩
  obtain ⟨hcode, -⟩ := pack_fields (wakeVerdict (wakeFlags c s) s.vseq).1 (wakeFlags c s)
  rw [wkchkOp_status, hcode, hresult]
  split <;> rfl

end tracker

/-! ### The tracker over a list of checks (R124 (a), R125) -/

/-- The `RESULT` codes of a list of frames checked from count `v`. -/
def results : Nat → List (Fin 4) → List (BitVec 4)
  | _, [] => []
  | v, k :: ks => (if InOrder v k then 1 else 5) :: results (advance v k) ks

theorem checkSectors_cons {f : Nat → Byte} {fs : List (Nat → Byte)} {s t : State} {r : List (BitVec 4)}
    (h : checkSectors fs (wkchkOp Config.hardware (s.fill 0 512 f)) = .next (t, r)) :
    checkSectors (f :: fs) s =
      .next (t, (wkchkOp Config.hardware (s.fill 0 512 f)).status.extractLsb' 0 4 :: r) := by
  rw [checkSectors, exec_eq_operate, andThen, operate, h, andThen]

theorem checkFrames_run (ks : List (Fin 4)) (s : State) :
    ∃ t, checkFrames ks s = .next (t, results s.vseq.toNat ks) ∧ t.vseq.toNat = ks.foldl advance s.vseq.toNat := by
  induction ks generalizing s with
  | nil => exact ⟨s, rfl, rfl⟩
  | cons k ks ih =>
    obtain ⟨hvseq, hresult⟩ := wkchkOp_of_frame Config.hardware_wellFormed (fill_holds s (wakeFrame Config.hardware k))
    obtain ⟨t, hrun, ht⟩ := ih (wkchkOp Config.hardware (s.fill 0 512 (wakeFrame Config.hardware k)))
    rw [hvseq] at hrun ht
    refine ⟨t, (checkSectors_cons hrun).trans ?_, ht⟩
    rw [hresult]
    rfl

theorem checkFrames_from_zero {s : State} (hs : s.vseq = 0) (ks : List (Fin 4)) :
    ∃ t r, checkFrames ks s = .next (t, r) ∧ (t.vseq = 4 ↔ [0, 1, 2, 3] <:+ ks) := by
  obtain ⟨t, hrun, ht⟩ := checkFrames_run ks s
  refine ⟨t, _, hrun, ?_⟩
  have hprogress : t.vseq.toNat = progress ks := by
    rw [ht, hs]
    exact foldl_advance_progress []
  rw [← BitVec.toNat_inj, hprogress]
  exact progress_eq_succ_iff (n := 3)

/-! ### The tracker over one step (R124) -/

section step
variable {s : State} {ks ks' : List (Fin 4)}

theorem issueWith_of_ok {c : Config} {cw : Word} {i : Instr} (h : decode cw = .ok i) :
    issueWith c cw s = operate c i s := by
  rw [issueWith, h]

theorem issueWith_of_error {c : Config} {cw : Word} {e : Illegal} (h : decode cw = .error e) :
    issueWith c cw s = illegalCommand s := by
  rw [issueWith, h]

/-- A mask that a command word carries is legal, so bit 1 of it decides about the tracker (R115). -/
theorem wkrstOp_vseq_of_decode {cw : Word} {m : BitVec 10} (h : decode cw = .ok (.wkrst m)) :
    (wkrstOp m s).vseq = if m.getLsbD 1 then 0 else s.vseq := by
  obtain ⟨⟨-, -, -, hadmits⟩, harg⟩ := decode_eq_ok_iff.1 h
  have hm : m.toNat ≤ 3 := by
    rw [show m = fieldArg cw from harg]
    exact hadmits
  rw [wkrstOp_of_lt s (by omega), State.finish_vseq]

theorem issueWith_tracks {cw : Word} {actions : List HostAction} (hin : s.inbox = .issue cw :: actions)
    (hv : s.vseq.toNat = progress ks) (hist : NextHistory s ks ks') :
    (issueWith Config.hardware cw { s with inbox := actions }).vseq.toNat = progress ks' := by
  simp only [NextHistory, hin] at hist
  cases hdecode : decode cw with
  | error e =>
    rw [hdecode] at hist
    rw [issueWith_of_error hdecode, show ks' = ks from hist]
    exact hv
  | ok i =>
    rw [hdecode] at hist
    rw [issueWith_of_ok hdecode]
    cases i with
    | wkchk =>
      obtain ⟨k, hframe, rfl⟩ | ⟨hunmarked, rfl⟩ | ⟨hmarked, hno, rfl⟩ := hist
      · rw [progress_concat, ← hv]
        exact (wkchkOp_of_frame Config.hardware_wellFormed hframe).1
      · exact (congrArg BitVec.toNat (wkchkOp_vseq_of_unmarked Config.hardware_wellFormed hunmarked)).trans hv
      · exact congrArg BitVec.toNat (wkchkOp_vseq_of_no_frame Config.hardware_wellFormed hmarked hno)
    | wkrst m =>
      rw [operate, wkrstOp_vseq_of_decode hdecode, show ks' = if m.getLsbD 1 then [] else ks from hist]
      split
      · rfl
      · exact hv
    | zero | scr | ckcalc | ckembed | ckverify | wktmpl | wkid _ | wknext | cmdseal _ | rspopen =>
      rw [operate_vseq _ _ rfl, show ks' = ks from hist]
      exact hv

theorem performWith_tracks {a : HostAction} {actions : List HostAction} (hin : s.inbox = a :: actions)
    (hv : s.vseq.toNat = progress ks) (hist : NextHistory s ks ks') :
    (performWith Config.hardware a { s with inbox := actions }).vseq.toNat = progress ks' := by
  cases a with
  | issue cw => exact issueWith_tracks hin hv hist
  | reset =>
    simp only [NextHistory, hin] at hist
    rw [hist]
    rfl
  | bufWrite8 _ _ | bufRead8 _ | bufWrite32 _ _ | bufRead32 _ | regRead _ =>
    simp only [NextHistory, hin] at hist
    rw [hist]
    exact hv

/-- Every action has its history: the one case to tell apart is what sector a `WKCHK` finds. -/
theorem exists_nextHistory (s : State) (ks : List (Fin 4)) : ∃ ks', NextHistory s ks ks' := by
  unfold NextHistory
  split
  · split
    · by_cases hframe : ∃ k, Holds s (wakeFrame Config.hardware k)
      · obtain ⟨k, hk⟩ := hframe
        exact ⟨_, .inl ⟨k, hk, rfl⟩⟩
      by_cases hmarked : ∀ j : Fin 4, s.byte j.val = Config.hardware.wakeMagic j
      · exact ⟨_, .inr (.inr ⟨hmarked, not_exists.1 hframe, rfl⟩)⟩
      · exact ⟨_, .inr (.inl ⟨not_forall.1 hmarked, rfl⟩)⟩
    · exact ⟨_, rfl⟩
    · exact ⟨_, rfl⟩
  · exact ⟨_, rfl⟩
  · exact ⟨_, rfl⟩

end step

/-! ### The statements -/

/-- Settles O56: the first action of the list moves the tracker as it moves the frames seen, and doing nothing moves neither. -/
theorem stepKeepsTrackerAtProgress : Obligations.StepKeepsTrackerAtProgress := by
  refine ⟨fun s t ks ks' hv hist hstep => ?_, exists_nextHistory⟩
  cases hin : s.inbox with
  | nil =>
    simp only [NextHistory, hin] at hist
    simp only [step, hin, idle] at hstep
    cases hstep
    rw [hist, hv]
  | cons a actions =>
    simp only [step, hin, perform_eq_performWith] at hstep
    cases hstep
    exact performWith_tracks hin hv hist

/-- Settles O38: the matchers, then the table line by line. -/
theorem wkchkClassifiesBuffer : Obligations.WkchkClassifiesBuffer := by
  refine ⟨by decide, fun s =>
    ⟨wkchkOp Config.hardware s, wakeFlags Config.hardware s, exec_eq_operate .wkchk s, ?_⟩⟩
  obtain ⟨hmagic, hidhit, hidx, hmiss, hgap, hfill, htrail, hckok⟩ := wakeFlags_spec Config.hardware_wellFormed s
  rw [wkchkOp_status, wkchkOp_vseq]
  refine ⟨hmagic, hmagic.trans hardware_magic_iff, hidhit, hidx, hmiss, hgap, hfill.trans ?_, htrail, rfl, rfl, hckok,
    fun hunmarked => ?_, fun hmarked hbroken => ?_, fun hstruct hmismatch => ?_, fun hstruct hvalid hfirst => ?_,
    fun hstruct hvalid hlater hnext => ?_, fun hstruct hvalid hlater hother => ?_,
    fun hstruct hvalid => ⟨pack_of_valid .ok hstruct hvalid, pack_of_valid .sequenceError hstruct hvalid⟩,
    fun _ _ => rfl, rfl, rfl, rfl, rfl⟩
  · simp only [← toNat_filler, BitVec.toNat_inj]
  · simp [wakeVerdict_of_unmarked hunmarked]
  · simp [wakeVerdict_of_broken hmarked hbroken]
  · simp [wakeVerdict_of_mismatch hstruct hmismatch]
  · simp [wakeVerdict_of_valid hstruct hvalid, hfirst]
  · simp [wakeVerdict_of_valid hstruct hvalid, hlater, hnext]
  · simp [wakeVerdict_of_valid hstruct hvalid, hlater, hother]

/-- Settles O39: the flags in `STATUS` are those of a valid frame, and a valid frame is the frame of its index. -/
theorem wkchkAcceptsExactlyTheFrames : Obligations.WkchkAcceptsExactlyTheFrames := by
  intro s
  refine ⟨_, exec_eq_operate .wkchk s, fun k => ?_⟩
  obtain ⟨-, -, -, -, -, -, -, -, hidx, -⟩ :=
    pack_fields (wakeVerdict (wakeFlags Config.hardware s) s.vseq).1 (wakeFlags Config.hardware s)
  rw [operate, wkchkOp_status, pack_flags_eq_iff, hidx, Fin.val_inj, and_assoc]
  exact holds_iff_valid Config.hardware_wellFormed

/-- Settles O40: the count runs to 4 over 0, 1, 2, 3 from any count, and from 0 over no other four frames. -/
theorem wakeOrderIsObservable : Obligations.WakeOrderIsObservable := by
  refine ⟨fun s => ?_, fun s ks hs hlength hne => ?_, fun s => ?_⟩
  · obtain ⟨t, hrun, ht⟩ := checkFrames_run [0, 1, 2, 3] s
    exact ⟨t, hrun, BitVec.eq_of_toNat_eq ht⟩
  · obtain ⟨t, r, hrun, hawake⟩ := checkFrames_from_zero hs ks
    exact ⟨t, r, hrun, fun h4 => hne ((hawake.1 h4).eq_of_length hlength.symm).symm⟩
  · obtain ⟨t, hrun, ht⟩ := checkFrames_run [0, 0, 1, 2, 3] s
    exact ⟨t, _, hrun, BitVec.eq_of_toNat_eq ht⟩

/-- Settles O41: from `VSEQ = 0` the count is the progress of the list. -/
theorem awakeExactlyAfterFullSequence : Obligations.AwakeExactlyAfterFullSequence :=
  fun _ ks hs => checkFrames_from_zero hs ks

/-- Settles O42, by induction on the list of sectors. -/
theorem unmarkedSectorsKeepTracker : Obligations.UnmarkedSectorsKeepTracker := by
  intro s fs hunmarked
  induction fs generalizing s with
  | nil => exact ⟨s, [], rfl, rfl⟩
  | cons f fs ih =>
    obtain ⟨⟨j, hj⟩, htail⟩ := List.forall_mem_cons.1 hunmarked
    obtain ⟨t, r, hrun, ht⟩ := ih (wkchkOp Config.hardware (s.fill 0 512 f)) htail
    refine ⟨t, _, checkSectors_cons hrun, ht.trans ?_⟩
    refine wkchkOp_vseq_of_unmarked Config.hardware_wellFormed ⟨j, ?_⟩
    rwa [fill_holds s f j (by omega)]

end Sys2Proof.Proofs.WakeValidatorLaws
end

section
/-! PROOFS, family 44_command_frames. The plain and the sealed frame as values (R132); a buffer that holds a given sector;
`CMDSEAL n` as zero-fill, `CKEMBED`, `SCR` (R130) and `RSPOPEN` as `SCR`, `CKVERIFY` (R133); then the theorems that settle
the family's statements. -/

namespace Sys2Proof.Proofs.CommandFrameLaws
open Sys2Proof.Machine Sys2Proof.Claims Sys2Proof.Proofs.StateLaws Sys2Proof.Proofs.MemoryLaws
  Sys2Proof.Proofs.EncodingLaws Sys2Proof.Proofs.ScramblerLaws Sys2Proof.Proofs.ChecksumLaws
  Sys2Proof.Proofs.WakeBuilderLaws

/-! ### The frame as a value (R132) -/

section frame
variable (c : Config) (p : List Byte) (f e : Nat → Byte)

/-- A zero byte more is a zero of the fill. -/
theorem plainBody_concat_zero : plainBody (p ++ [0]) = plainBody p := by
  funext a
  simp only [plainBody]
  obtain h | h := Nat.lt_or_ge a p.length
  · exact List.getD_append _ _ _ _ h
  · rw [List.getD_append_right _ _ _ _ h, List.getD_eq_default p _ h]
    cases a - p.length <;> rfl

theorem plainFrame_concat_zero : plainFrame c (p ++ [0]) = plainFrame c p := by
  funext a
  rw [plainFrame, plainFrame, plainChecksum, plainChecksum, plainBody_concat_zero]

theorem plainFrame_stored {j : Nat} (hj : j < 4) : plainFrame c p (4 * 127 + j) = byteOf (plainChecksum c p) j := by
  rw [plainFrame, if_neg (by omega), Nat.add_sub_cancel_left]

/-- The stored checksum, as a word. -/
theorem word_plainFrame : wordOfBytes (plainFrame c p) 127 = plainChecksum c p :=
  word_ext fun j hj => by rw [byteOf_wordOfBytes _ _ hj, plainFrame_stored c p hj]

/-- The checksum of R132 is that of the frame itself, which the stored checksum is not part of. -/
theorem plainChecksum_eq_cksumFn : plainChecksum c p = c.cksumFn fun i => wordOfBytes (plainFrame c p) i :=
  congrArg c.cksumFn (funext fun _ => wordOfBytes_congr fun _ _ => (if_pos (by omega)).symm)

/-- The table byte that a scramble puts in is the one that the next takes out (40_buffer_scrambler R92). -/
theorem scrambledFrame_scrambledFrame : scrambledFrame c (scrambledFrame c f) = f := by
  funext a
  rw [scrambledFrame_byte, scrambledFrame_byte, BitVec.xor_assoc, BitVec.xor_self, BitVec.xor_zero]

/-- A scramble carries an error pattern over as it is (40_buffer_scrambler R93 (a)). -/
theorem scrambledFrame_xor :
    scrambledFrame c (fun a => f a ^^^ e a) = fun a => scrambledFrame c f a ^^^ e a := by
  funext a
  rw [scrambledFrame_byte, scrambledFrame_byte]
  ac_rfl

variable {e}

/-- An error outside the payload leaves the checksum of the payload. -/
theorem cksumFn_xor_of_payload_zero (he : ∀ a, a < 508 → e a = 0) :
    (c.cksumFn fun i => wordOfBytes (fun a => f a ^^^ e a) i) = c.cksumFn fun i => wordOfBytes f i :=
  congrArg c.cksumFn (funext fun i => wordOfBytes_congr fun j hj => by
    simp [he (4 * i + j) (by omega)])

/-- An error in the stored checksum changes it. -/
theorem word_xor_ne {a : Nat} (hlo : 508 ≤ a) (hhi : a < 512) (he : e a ≠ 0) :
    wordOfBytes (fun a => f a ^^^ e a) 127 ≠ wordOfBytes f 127 := by
  intro heq
  obtain ⟨j, rfl⟩ := Nat.exists_eq_add_of_le hlo
  have hbyte := congrArg (byteOf · j) heq
  rw [byteOf_wordOfBytes _ _ (by omega), byteOf_wordOfBytes _ _ (by omega)] at hbyte
  exact he ((BitVec.xor_right_inj _).1 (hbyte.trans BitVec.xor_zero.symm))

end frame

/-! ### A buffer that holds a given sector -/

section held
variable {s : State} {f : Nat → Byte} (c : Config) (h : Holds s f)
include h

theorem word_of_holds (i : Fin 128) : s.word i = wordOfBytes f i :=
  wordOfBytes_congr fun _ _ => h _ (by omega)

theorem checksum_of_holds : checksum c s = c.cksumFn fun i => wordOfBytes f i :=
  congrArg c.cksumFn (payload_of_bytes fun a ha => h a (by omega))

theorem scramble_holds : Holds (scramble c s) (scrambledFrame c f) :=
  fun a ha => by rw [byte_scramble c s ha, scrambledFrame_byte, h a ha]

end held

/-! ### CMDSEAL (R130, R131) -/

section sealing
variable (c : Config) {n : BitVec 10} (s : State)

/-- The buffer with zeros from offset `n` on: step 1 of R130. -/
def zeroFilled (n : Nat) (s : State) (a : Nat) : Byte := if a < n then s.byte a else 0

theorem fill_holds_zeroFilled (n : Nat) : Holds (s.fill n (512 - n) fun _ => 0) (zeroFilled n s) := by
  intro a ha
  rw [State.byte_fill, zeroFilled]
  by_cases han : a < n
  · rw [if_neg (by omega), if_pos han]
  · rw [if_pos (by omega), if_neg han]

/-- The three steps of R130, the last two as the operations they are. -/
theorem cmdsealOp_eq_scrOp_ckembedOp (h : n.toNat ≤ 508) :
    cmdsealOp c n s = scrOp c (ckembedOp c (s.fill n.toNat (512 - n.toNat) fun _ => 0)) := by
  rw [cmdsealOp_of_le c s h]
  rfl

theorem cmdsealOp_status (h : n.toNat ≤ 508) : (cmdsealOp c n s).status = 0x00000001 := by
  rw [cmdsealOp_of_le c s h]
  rfl

theorem cmdsealOp_ckCalc (h : n.toNat ≤ 508) :
    (cmdsealOp c n s).ckCalc = c.cksumFn fun i => wordOfBytes (zeroFilled n.toNat s) i := by
  rw [cmdsealOp_of_le c s h]
  exact checksum_of_holds c (fill_holds_zeroFilled s n.toNat)

/-- Words 0..126: the embed does not touch them. -/
theorem word_cmdsealOp_payload (h : n.toNat ≤ 508) (i : Fin 127) :
    (cmdsealOp c n s).word i = wordOfBytes (zeroFilled n.toNat s) i ^^^ c.xorTable (i.castLE (by omega)) := by
  rw [cmdsealOp_eq_scrOp_ckembedOp c s h]
  refine (word_scrOp c _ (i.castLE (by omega))).trans (congrArg (· ^^^ c.xorTable _) ?_)
  calc (ckembedOp c (s.fill n.toNat (512 - n.toNat) fun _ => 0)).word i
      = (s.fill n.toNat (512 - n.toNat) fun _ => 0).word i := State.word_setWord_of_ne _ i.isLt.ne _
    _ = wordOfBytes (zeroFilled n.toNat s) i :=
        word_of_holds (fill_holds_zeroFilled s n.toNat) (i.castLE (by omega))

/-- Word 127: the checksum the embed stored. -/
theorem word_cmdsealOp_stored (h : n.toNat ≤ 508) :
    (cmdsealOp c n s).word 127 = (cmdsealOp c n s).ckCalc ^^^ c.xorTable 127 := by
  rw [cmdsealOp_eq_scrOp_ckembedOp c s h]
  exact (word_scrOp c _ 127).trans (congrArg (· ^^^ c.xorTable 127) (word_ckembedOp c _))

theorem exec_cmdseal_of_gt (h : 508 < n.toNat) : exec (.cmdseal n) s = .next { s with status := 0x00000003 } :=
  congrArg Host.Outcome.next (cmdsealOp_of_gt Config.hardware s h)

variable {s} {p : List Byte}

/-- The operand of `CMDSEAL` is the length of the payload (R130). -/
theorem toNat_payloadLength (hp : p.length ≤ 508) : (BitVec.ofNat 10 p.length).toNat = p.length := by
  rw [BitVec.toNat_ofNat, Nat.mod_eq_of_lt (by omega)]

theorem cmdsealOp_seals (hp : p.length ≤ 508) (h : ∀ a, a < p.length → s.byte a = p.getD a 0) :
    Holds (cmdsealOp c (BitVec.ofNat 10 p.length) s) (sealedFrame c p) ∧
      (cmdsealOp c (BitVec.ofNat 10 p.length) s).ckCalc = plainChecksum c p := by
  have hn := toNat_payloadLength hp
  obtain ⟨hchecksum, hplain⟩ := embed_plainFrame (c := c) hp h
  rw [cmdsealOp_of_le c s (hn.trans_le hp), hn]
  exact ⟨scramble_holds c hplain, hchecksum⟩

end sealing

/-! ### RSPOPEN (R133) -/

section opening
variable {c : Config} {s : State} {f : Nat → Byte}

theorem rspopenOp_frame : SameCounters s (rspopenOp c s) ∧ SameHostSide s (rspopenOp c s) :=
  ⟨⟨rfl, rfl⟩, rfl, rfl, rfl⟩

theorem rspopenOp_status_of_eq (h : (rspopenOp c s).ckCalc = (rspopenOp c s).ckRecv) :
    (rspopenOp c s).status = 0x00000101 := ckverifyOp_status_of_eq h

theorem rspopenOp_status_of_ne (h : (rspopenOp c s).ckCalc ≠ (rspopenOp c s).ckRecv) :
    (rspopenOp c s).status = 0x00000002 := ckverifyOp_status_of_ne h

/-- The mismatch is reported exactly when it is there. -/
theorem rspopenOp_status_eq_mismatch_iff :
    (rspopenOp c s).status = 0x00000002 ↔ (rspopenOp c s).ckCalc ≠ (rspopenOp c s).ckRecv := by
  refine ⟨fun hstatus heq => ?_, rspopenOp_status_of_ne⟩
  rw [rspopenOp_status_of_eq heq] at hstatus
  exact absurd hstatus (by decide)

/-- Opening the scrambled form of a sector gives back the sector and its two checksums. -/
theorem rspopenOp_opens (h : Holds s (scrambledFrame c f)) :
    Holds (rspopenOp c s) f ∧ (rspopenOp c s).ckCalc = (c.cksumFn fun i => wordOfBytes f i) ∧
      (rspopenOp c s).ckRecv = wordOfBytes f 127 := by
  have hopened : Holds (scramble c s) f := by
    simpa only [scrambledFrame_scrambledFrame] using scramble_holds c h
  exact ⟨hopened, checksum_of_holds c hopened, word_of_holds hopened 127⟩

/-- A seal that nothing changed opens to the plain frame, with equal checksums (R135). -/
theorem rspopenOp_of_sealed {p : List Byte} (h : Holds s (sealedFrame c p)) :
    Holds (rspopenOp c s) (plainFrame c p) ∧ (rspopenOp c s).ckCalc = (rspopenOp c s).ckRecv := by
  obtain ⟨hplain, hcalc, hrecv⟩ := rspopenOp_opens h
  refine ⟨hplain, ?_⟩
  rw [hcalc, hrecv, word_plainFrame, plainChecksum_eq_cksumFn]

end opening

/-! ### Commands of the host, step by step -/

section steps
variable {s t : State} {i j : Instr} {rest : List HostAction}

theorem step_of_issue (hi : i.wf = true) (hin : s.inbox = .issue (encode i) :: rest) :
    step s = .next (operate Config.hardware i { s with inbox := rest }) := by
  obtain ⟨hstep, -⟩ := stepRunsDecodedOperation
  rw [hstep s _ i rest hin (decodeOfEncode i hi), exec_eq_operate]

theorem run_succ_of_step {k : Nat} (h : step s = .next t) : core.run (k + 1) s = core.run k t := by
  have hcore : core.step s = .next t := h
  simp only [Host.Core.run, hcore]

/-- Two steps over two commands: the first operation leaves the list of actions alone, so the second is next on it. -/
theorem run_two_issues (hi : i.wf = true) (hj : j.wf = true)
    (hin : s.inbox = .issue (encode i) :: .issue (encode j) :: rest) :
    core.run 2 s = .next (operate Config.hardware j
      { operate Config.hardware i { s with inbox := .issue (encode j) :: rest } with inbox := rest }) := by
  obtain ⟨-, hinbox, -⟩ := operate_sameHostSide Config.hardware { s with inbox := .issue (encode j) :: rest } i
  exact (run_succ_of_step (step_of_issue hi hin)).trans (run_succ_of_step (step_of_issue hj hinbox))

theorem holds_with_inbox {f : Nat → Byte} : Holds { s with inbox := rest } f ↔ Holds s f := Iff.rfl

end steps

/-! ### The statements -/

/-- Settles O43, from what sealing leaves in the buffer and outside it. -/
theorem cmdsealSealsPayload : Obligations.CmdsealSealsPayload := by
  intro s p hp hbytes
  have hn := toNat_payloadLength hp
  obtain ⟨hsealed, hcalc⟩ := cmdsealOp_seals Config.hardware hp hbytes
  refine ⟨?_, _, exec_eq_operate (.cmdseal _) s, hsealed, hcalc, cmdsealOp_status _ s (hn.trans_le hp),
    cmdsealOp_frame _ _ s⟩
  rw [encode_eq_ofNat, Instr.arg, hn]
  rfl

/-- Settles O44: the words of the zero-filled buffer, embedded and scrambled. -/
theorem cmdsealIsZeroFillEmbedScramble : Obligations.CmdsealIsZeroFillEmbedScramble := by
  refine ⟨fun n => encode_eq_ofNat (.cmdseal n), fun n s => exec_cmdseal_of_gt s, fun n s hn => ?_⟩
  have hcalc := cmdsealOp_ckCalc Config.hardware s hn
  have hstored := word_cmdsealOp_stored Config.hardware s hn
  obtain ⟨hrecv, hcounters, hhost⟩ := cmdsealOp_frame Config.hardware n s
  obtain ⟨hbuffer, hrest⟩ := SameState.of_eq (cmdsealOp_eq_scrOp_ckembedOp Config.hardware s hn)
  rw [hcalc] at hstored
  exact ⟨_, exec_eq_operate (.cmdseal n) s, ⟨hcalc, word_cmdsealOp_payload _ s hn, hstored⟩, cmdsealOp_status _ s hn,
    hrecv, hcounters, hhost, _, _, exec_eq_operate .ckembed _, exec_eq_operate .scr _, hbuffer, hrest⟩

/-- Settles O46: the buffer is scrambled once, and the checksums latched are those of the result. -/
theorem rspopenDescramblesAndVerifies : Obligations.RspopenDescramblesAndVerifies :=
  ⟨by decide, fun s => ⟨_, exec_eq_operate .rspopen s, word_scramble _ s, rfl, rfl, rspopenOp_status_of_eq,
    rspopenOp_status_of_ne, rspopenOp_frame⟩⟩

/-- Settles O47: the first step seals, the second opens what the first left. -/
theorem sealThenOpenRoundTrip : Obligations.SealThenOpenRoundTrip := by
  intro s p rest hp hbytes hin
  have hrun := run_two_issues (i := .cmdseal _) (j := .rspopen) rfl rfl hin
  obtain ⟨hsealed, -⟩ :=
    cmdsealOp_seals Config.hardware (s := { s with inbox := .issue (encode .rspopen) :: rest }) hp hbytes
  obtain ⟨hplain, hmatch⟩ := rspopenOp_of_sealed ((holds_with_inbox (rest := rest)).2 hsealed)
  exact ⟨_, hrun, rspopenOp_status_of_eq hmatch, hplain, hmatch, rfl⟩

/-- Settles O48: the changed seal is the scrambled form of the changed plain frame. -/
theorem wireCorruptionReachesPlainForm : Obligations.WireCorruptionReachesPlainForm := by
  intro u p e _ hwire
  have hscrambled : Holds u (scrambledFrame Config.hardware fun a => plainFrame Config.hardware p a ^^^ e a) := by
    rw [scrambledFrame_xor]
    exact hwire
  obtain ⟨hopened, hcalc, hrecv⟩ := rspopenOp_opens hscrambled
  have hreported := rspopenOp_status_eq_mismatch_iff (c := Config.hardware) (s := u)
  rw [hcalc, hrecv] at hreported
  refine ⟨_, exec_eq_operate .rspopen u, hopened, hreported, fun hpayload ⟨a, hlo, hhi, hea⟩ => hreported.2 ?_⟩
  rw [cksumFn_xor_of_payload_zero _ _ hpayload, ← plainChecksum_eq_cksumFn, ← word_plainFrame]
  exact (word_xor_ne _ hlo hhi hea).symm

/-- Settles O49: the two frames are one function of the offset, and so are their scrambled forms. -/
theorem frameForgetsTrailingZeros : Obligations.FrameForgetsTrailingZeros := by
  intro p a _ _
  rw [sealedFrame, sealedFrame, plainFrame_concat_zero]
  exact ⟨rfl, rfl⟩

/-- Settles O45, the branch of a length above 508. -/
theorem cmdsealRejectsLongPayload : Obligations.CmdsealRejectsLongPayload :=
  fun _ s => exec_cmdseal_of_gt s

end Sys2Proof.Proofs.CommandFrameLaws
end

section
/-! PROOFS, family 45_host_sequences. What `BufLoad`, `BufDump` and the `Issue` of a well-formed operation do; `HANDSHAKE` after
a number of frames (R141); `EXCHANGE` at each answer of the channel (R142); then the theorems that settle the family's
statements. -/

namespace Sys2Proof.Proofs.HostSequenceLaws
open Sys2Proof.Machine Sys2Proof.Claims Sys2Proof.Proofs.StateLaws Sys2Proof.Proofs.MemoryLaws
  Sys2Proof.Proofs.EncodingLaws Sys2Proof.Proofs.WakeBuilderLaws Sys2Proof.Proofs.WakeValidatorLaws
  Sys2Proof.Proofs.CommandFrameLaws

/-! ### The ports the procedures use -/

section ports
variable {s : State}

@[simp] theorem regRead_status (s : State) : regRead 0 s = s.status := rfl

@[simp] theorem regRead_ckCalc (s : State) : regRead 1 s = s.ckCalc := rfl

@[simp] theorem regRead_ckRecv (s : State) : regRead 2 s = s.ckRecv := rfl

/-- The `Issue` of a well-formed operation is that operation (30_encoding R74). -/
theorem issue_encode {i : Instr} (hi : i.wf = true) (s : State) :
    issue (encode i) s = .next (operate Config.hardware i s) := by
  rw [issue_eq_issueWith, issueWith_of_ok (decodeOfEncode i hi)]

/-- `BufLoad` puts the bytes at their offsets and leaves the others (20_memory R55). -/
theorem byte_bufLoad (a : Nat) (bytes : List Byte) (h : a + bytes.length ≤ 512) (s : State) (b : Nat) :
    (bufLoad a bytes h s).byte b = if a ≤ b ∧ b < a + bytes.length then bytes.getD (b - a) 0 else s.byte b := by
  induction bytes generalizing a s with
  | nil => rw [bufLoad, if_neg (by simp)]
  | cons v bytes ih =>
    rw [List.length_cons] at h ⊢
    have hoffset : (BitVec.ofNat 9 a).toNat = a := by rw [BitVec.toNat_ofNat, Nat.mod_eq_of_lt (by omega)]
    rw [bufLoad, ih, byte_bufWrite8, hoffset]
    obtain hlt | rfl | hgt := Nat.lt_trichotomy b a
    · rw [if_neg (by omega), if_neg (by omega), if_neg (by omega)]
    · rw [if_neg (by omega), if_pos rfl, if_pos (by omega), Nat.sub_self]
      rfl
    · obtain ⟨d, rfl⟩ := Nat.exists_eq_add_of_lt hgt
      rw [if_neg (by omega : a + d + 1 ≠ a), show a + d + 1 - a = d + 1 by omega, List.getD_cons_succ,
        show a + d + 1 - (a + 1) = d by omega]
      exact if_congr (by omega) rfl rfl

theorem byte_bufLoad_zero {bytes : List Byte} (h : 0 + bytes.length ≤ 512) {a : Nat} (ha : a < bytes.length) :
    (bufLoad 0 bytes h s).byte a = bytes.getD a 0 := by
  rw [byte_bufLoad, if_pos (by omega), Nat.sub_zero]

/-- `BufDump` from offset 0 of a buffer that holds a sector (20_memory R55). -/
theorem bufDump_of_holds {f : Nat → Byte} (h : Holds s f) {n : Nat} (hn : n ≤ 512) :
    bufDump 0 n s = (List.range n).map f := by
  rw [bufDump, ← List.range_eq_range']
  refine List.map_congr_left fun a ha => ?_
  have hlt : a < 512 := (List.mem_range.1 ha).trans_le hn
  rw [bufRead8, BitVec.toNat_ofNat, Nat.mod_eq_of_lt hlt, h a hlt]

end ports

/-! ### HANDSHAKE (R141) -/

section handshake
variable (o : ChannelOracle) (t : Target) {s : State}

/-- The channel calls of a handshake that has come to its `m`-th frame: the frames before it, in order. -/
def frameWrites (t : Target) (m : Nat) : List ChannelCall :=
  ((List.finRange 4).take m).map fun j => .write t (dumpOf (wakeFrame Config.hardware j))

theorem frameWrites_succ (k : Fin 4) :
    frameWrites t (k + 1) = frameWrites t k ++ [.write t (dumpOf (wakeFrame Config.hardware k))] := by
  simp [frameWrites, List.take_add_one]

variable {o t} {k : Fin 4} {n : Nat}

/-- A failed write ends the loop with the frame in the buffer and its one call. -/
theorem handshakeFrom_of_fails (hwseq : s.wseq.toNat = k) (hfails : o.writeFails k = true) :
    handshakeFrom o t (n + 1) k s =
      .next ⟨.channelError, [.write t (dumpOf (wakeFrame Config.hardware k))], wknextOp Config.hardware s⟩ := by
  obtain ⟨hframe, -⟩ := wknextOp_builds (c := Config.hardware) hwseq
  simp only [handshakeFrom, issue_encode (i := .wknext) rfl, andThen, operate, hfails, if_true,
    bufDump_of_holds hframe le_rfl, dumpOf]

/-- A write that did not fail goes before the calls of the frames to go. -/
theorem handshakeFrom_of_written {r : HostRun HandshakeResult} (hwseq : s.wseq.toNat = k)
    (hwritten : o.writeFails k = false)
    (hrest : handshakeFrom o t n (k + 1) (wknextOp Config.hardware s) = .next r) :
    handshakeFrom o t (n + 1) k s =
      .next { r with calls := .write t (dumpOf (wakeFrame Config.hardware k)) :: r.calls } := by
  obtain ⟨hframe, -⟩ := wknextOp_builds (c := Config.hardware) hwseq
  simp only [handshakeFrom, issue_encode (i := .wknext) rfl, andThen, operate, hwritten, Bool.false_eq_true, if_false,
    hrest, bufDump_of_holds hframe le_rfl, dumpOf]

/-- After `m` writes that did not fail the handshake has the builder at frame `m` and `4 - m` frames to go. -/
theorem handshake_after (s : State) {m : Nat} (hm : m ≤ 4) (hwritten : ∀ j, j < m → o.writeFails j = false) :
    ∃ u : State, u.wseq.toNat = m ∧ ∀ r, handshakeFrom o t (4 - m) m u = .next r →
      handshake o t s = .next { r with calls := frameWrites t m ++ r.calls } := by
  induction m with
  | zero =>
    refine ⟨wkrstOp 1 s, ?_, fun r hr => ?_⟩
    · rw [wkrstOp_of_lt s (by decide)]
      rfl
    · rw [handshake, issue_encode (i := .wkrst 1) rfl, andThen, operate, hr]
      rfl
  | succ m ih =>
    obtain ⟨u, hwseq, hrun⟩ := ih (by omega) fun j hj => hwritten j (by omega)
    obtain ⟨k, rfl⟩ : ∃ k : Fin 4, k.val = m := ⟨⟨m, hm⟩, rfl⟩
    obtain ⟨-, -, hnext, -⟩ := wknextOp_builds (c := Config.hardware) hwseq
    refine ⟨wknextOp Config.hardware u, hnext, fun r hr => ?_⟩
    have hstep := handshakeFrom_of_written hwseq (hwritten k (by omega)) hr
    rw [show 4 - (k.val + 1) + 1 = 4 - k by omega] at hstep
    rw [hrun _ hstep, frameWrites_succ t k, List.append_assoc]
    rfl

end handshake

/-! ### EXCHANGE (R142) -/

section exchange
variable (o : ChannelOracle) (t : Target) {p : List Byte} (s : State)

/-- The sealed sector that `EXCHANGE` leaves in the buffer and hands to the channel, and what follows each answer. -/
theorem exchange_of_fits (hp : p.length ≤ 508) :
    ∃ u, Holds u (sealedFrame Config.hardware p) ∧
      (let written := ChannelCall.write t (dumpOf (sealedFrame Config.hardware p))
       (o.writeFails 0 = true → exchange o t p s = .next ⟨.channelError, [written], u⟩) ∧
       (o.writeFails 0 = false → o.readAnswer 0 = none →
        exchange o t p s = .next ⟨.channelError, [written, .read t], u⟩) ∧
       ∀ q, o.writeFails 0 = false → o.readAnswer 0 = some q →
        exchange o t p s = exchangeOpen q [written, .read t] u) := by
  have hloaded : ∀ a, a < p.length → (bufLoad 0 p (by omega) s).byte a = p.getD a 0 :=
    fun a ha => byte_bufLoad_zero _ ha
  obtain ⟨hsealed, -⟩ := cmdsealOp_seals Config.hardware hp hloaded
  have hstatus := cmdsealOp_status Config.hardware (bufLoad 0 p (by omega) s) ((toNat_payloadLength hp).trans_le hp)
  have hok : ¬ (1 : Word).extractLsb' 0 4 ≠ 1 := by decide
  have hdump : bufDump 0 512 _ = dumpOf (sealedFrame Config.hardware p) := bufDump_of_holds hsealed le_rfl
  refine ⟨_, hsealed, ?_⟩
  simp only [exchange, dif_neg (Nat.not_lt.2 hp), issue_encode (i := .cmdseal _) rfl, andThen, operate, regRead_status,
    hstatus, if_neg hok, hdump]
  refine ⟨fun hfails => ?_, fun hwritten hread => ?_, fun q hwritten hread => ?_⟩
  · rw [if_pos hfails]
  · rw [hwritten, hread]
    rfl
  · rw [hwritten, hread]
    rfl

/-- Bit 8 of `STATUS` after `RSPOPEN` says whether the checksums agree (44_command_frames R133). -/
theorem rspopenOp_status_bit (c : Config) :
    (rspopenOp c s).status.getLsbD 8 = decide ((rspopenOp c s).ckCalc = (rspopenOp c s).ckRecv) := by
  by_cases h : (rspopenOp c s).ckCalc = (rspopenOp c s).ckRecv
  · rw [rspopenOp_status_of_eq h, decide_eq_true h]
    rfl
  · rw [rspopenOp_status_of_ne h, decide_eq_false h]
    rfl

/-- The sector read, loaded and opened. -/
theorem exchangeOpen_opens (q : Vector Byte 512) (calls : List ChannelCall) :
    let plain := scrambledFrame Config.hardware fun a => q.toList.getD a 0
    let computed := Config.hardware.cksumFn fun i => wordOfBytes plain i.val
    let received := wordOfBytes plain 127
    ∃ v, Holds v plain ∧ exchangeOpen q calls s = .next ⟨.answered ((List.range 508).map plain)
      (if computed = received then .ok else .checksumMismatch computed received), calls, v⟩ := by
  intro plain computed received
  have hloaded : Holds (bufLoad 0 q.toList (by simp) s) (scrambledFrame Config.hardware plain) := by
    intro a ha
    rw [scrambledFrame_scrambledFrame]
    exact byte_bufLoad_zero _ (by simpa using ha)
  obtain ⟨hplain, hcalc, hrecv⟩ := rspopenOp_opens hloaded
  refine ⟨_, hplain, ?_⟩
  simp only [exchangeOpen, issue_encode (i := .rspopen) rfl, andThen, operate, regRead_status, regRead_ckCalc,
    regRead_ckRecv, rspopenOp_status_bit, decide_eq_true_eq, hcalc, hrecv,
    bufDump_of_holds hplain (by decide : 508 ≤ 512), computed, received]

end exchange

/-! ### The statements -/

/-- Settles O50: after four writes nothing is left to do. -/
theorem handshakeWritesFourFrames : Obligations.HandshakeWritesFourFrames := by
  intro o t s hwritten
  obtain ⟨u, hwseq, hrun⟩ := handshake_after (t := t) s le_rfl hwritten
  exact ⟨_, hrun ⟨.done, [], u⟩ rfl, rfl, BitVec.eq_of_toNat_eq hwseq, rfl⟩

/-- Settles O51: the handshake comes to frame `k`, and that write ends it. -/
theorem handshakeStopsAtFirstError : Obligations.HandshakeStopsAtFirstError := by
  intro o t s k hfails hwritten
  obtain ⟨u, hwseq, hrun⟩ := handshake_after (t := t) s k.isLt.le hwritten
  obtain ⟨hframe, -, hnext, -⟩ := wknextOp_builds (c := Config.hardware) hwseq
  have hstop := handshakeFrom_of_fails (t := t) (n := 4 - (k + 1)) hwseq hfails
  rw [show 4 - (k.val + 1) + 1 = 4 - k by omega] at hstop
  exact ⟨_, hrun _ hstop, rfl, hnext, hframe, (frameWrites_succ t k).symm⟩

/-- Settles O52, the first test of R142. -/
theorem exchangeRejectsLongPayload : Obligations.ExchangeRejectsLongPayload :=
  fun _ _ _ _ hp => dif_pos hp

/-- Settles O53: neither failure touches the block. -/
theorem exchangeReportsChannelError : Obligations.ExchangeReportsChannelError := by
  intro o t s p hp
  obtain ⟨u, hsealed, hwriteFails, hreadFails, -⟩ := exchange_of_fits o t s hp
  exact ⟨fun hfails => ⟨_, hwriteFails hfails, rfl, rfl, hsealed⟩,
    fun hwritten hread => ⟨_, hreadFails hwritten hread, rfl, rfl, hsealed⟩⟩

/-- Settles O54: the sector read is opened, whatever it is. -/
theorem exchangeReturnsPayloadAndIntegrity : Obligations.ExchangeReturnsPayloadAndIntegrity := by
  intro o t s p q hp hwritten hread
  obtain ⟨u, -, -, -, hopen⟩ := exchange_of_fits o t s hp
  obtain ⟨v, hplain, hrun⟩ := exchangeOpen_opens u q _
  exact ⟨_, (hopen q hwritten hread).trans hrun, rfl, rfl, hplain⟩

/-! ### The calls of a procedure, whatever the channel answers (R144, R146) -/

/-- Every handshake either writes four frames or stops at a first failed write, so it makes the writes of its first frames. -/
theorem handshake_calls (o : ChannelOracle) (t : Target) (s : State) :
    ∃ r m, handshake o t s = .next r ∧ r.calls = frameWrites t m := by
  by_cases hfails : ∃ k, k < 4 ∧ o.writeFails k = true
  · obtain ⟨hk, hfirst⟩ := Nat.find_spec hfails
    have hwritten : ∀ j, j < Nat.find hfails → o.writeFails j = false := fun j hj =>
      Bool.eq_false_iff.2 fun hj' => Nat.find_min hfails hj ⟨hj.trans hk, hj'⟩
    obtain ⟨r, hrun, -, -, -, hcalls⟩ := handshakeStopsAtFirstError o t s ⟨_, hk⟩ hfirst hwritten
    exact ⟨r, _, hrun, hcalls⟩
  · obtain ⟨r, hrun, -, -, hcalls⟩ := handshakeWritesFourFrames o t s fun k hk =>
      Bool.eq_false_iff.2 fun hk' => hfails ⟨k, hk, hk'⟩
    exact ⟨r, 4, hrun, hcalls⟩

/-- An exchange makes no call, one write, or one write and one read (R144). -/
theorem exchange_calls (o : ChannelOracle) (t : Target) (p : List Byte) (s : State) :
    ∃ r, exchange o t p s = .next r ∧
      (r.calls = [] ∨ ∃ b, r.calls = [.write t b] ∨ r.calls = [.write t b, .read t]) := by
  obtain hlong | hfits := Nat.lt_or_ge 508 p.length
  · exact ⟨_, exchangeRejectsLongPayload o t s p hlong, .inl rfl⟩
  obtain ⟨hwriteFails, hreadFails⟩ := exchangeReportsChannelError o t s p hfits
  cases hwrite : o.writeFails 0 with
  | true =>
    obtain ⟨r, hrun, -, hcalls, -⟩ := hwriteFails hwrite
    exact ⟨r, hrun, .inr ⟨_, .inl hcalls⟩⟩
  | false =>
    cases hread : o.readAnswer 0 with
    | none =>
      obtain ⟨r, hrun, -, hcalls, -⟩ := hreadFails hwrite hread
      exact ⟨r, hrun, .inr ⟨_, .inr hcalls⟩⟩
    | some q =>
      obtain ⟨r, hrun, -, hcalls, -⟩ := exchangeReturnsPayloadAndIntegrity o t s p q hfits hwrite hread
      exact ⟨r, hrun, .inr ⟨_, .inr hcalls⟩⟩

/-- Settles O55, from the calls that each procedure can make. -/
theorem hostSequencesUseOneTarget : Obligations.HostSequencesUseOneTarget := by
  intro o t s p
  obtain ⟨r, m, hrun, hcalls⟩ := handshake_calls o t s
  obtain ⟨r', hrun', hcalls'⟩ := exchange_calls o t p s
  refine ⟨⟨r, hrun, fun x hx => ?_, ?_⟩, r', hrun', fun x hx => ?_, hcalls'⟩
  · rw [hcalls] at hx
    obtain ⟨j, -, rfl⟩ := List.mem_map.1 hx
    exact ⟨_, rfl⟩
  · rw [hcalls]
    simp [frameWrites]
  · obtain h | ⟨b, h | h⟩ := hcalls'
    · simp [h] at hx
    · obtain rfl : x = .write t b := by simpa [h] using hx
      rfl
    · obtain rfl | rfl : x = .write t b ∨ x = .read t := by simpa [h] using hx
      · rfl
      · rfl

end Sys2Proof.Proofs.HostSequenceLaws
end

section
/-! PROOFS, family 60_exceptions. What one step answers, with and without a host action waiting; then the theorem that settles
the family's statement. -/

namespace Sys2Proof.Proofs.ExceptionLaws
open Sys2Proof.Machine Sys2Proof.Claims Sys2Proof.Proofs.MemoryLaws

/-! ### One step, with and without a host action -/

section step
variable {s : State}

theorem step_of_nil (hin : s.inbox = []) : step s = .next s := by
  simp only [step, hin, idle]

theorem step_of_cons {a : HostAction} {rest : List HostAction} (hin : s.inbox = a :: rest) :
    step s = .next (performWith Config.hardware a { s with inbox := rest }) := by
  obtain ⟨-, -, hperform⟩ := stepRunsDecodedOperation
  rw [hperform s a rest hin, perform_eq_performWith]

end step

/-! ### The statement -/

/-- Settles O9: the host either asks for nothing or its first action is performed, and every action has a next state
(60_exceptions R156). -/
theorem everyStepGoesOn : Obligations.EveryStepGoesOn := by
  intro s
  cases hin : s.inbox with
  | nil => exact ⟨_, step_of_nil hin⟩
  | cons a rest => exact ⟨_, step_of_cons hin⟩

end Sys2Proof.Proofs.ExceptionLaws
end

section
/-! PROOFS, family 70_reset_and_hazards. A run takes one step a host action (R187); what is left is the step that finds no
host action waiting. -/

namespace Sys2Proof.Proofs.ResetLaws
open Sys2Proof.Machine Sys2Proof.Proofs.ExceptionLaws

/-- Settles O8: the idle branch of the step, said once as `step_of_nil` (70_reset_and_hazards R187, log entry 2). -/
theorem stepWithoutActionIsIdle : Obligations.StepWithoutActionIsIdle := by
  intro s hin
  exact step_of_nil hin

end Sys2Proof.Proofs.ResetLaws
end
